-- ==== Sys2Proof/Word.lean ====
section
/-! DEFINITION. The word types of the block (00_scope.md R7, R8): bytes, 16-bit and 32-bit unsigned
integers, the 7-bit and 1-bit packet fields, and finite byte strings. -/

namespace Sys2Proof

/-- A byte (`u8`); bit 7 is the most significant (R7). -/
abbrev Byte := BitVec 8

/-- A 16-bit unsigned integer (`u16`), the type of protocol numbers, ports and lengths (R7). -/
abbrev U16 := BitVec 16

/-- A 32-bit unsigned integer (`u32`), the type of a CRC (R7). -/
abbrev U32 := BitVec 32

/-- A 7-bit sequence number, 0 to 127 (R65, R143). -/
abbrev Seq7 := BitVec 7

/-- A one-bit field: the poll flag, the poll/final flag (R65, R66). -/
abbrev Bit1 := BitVec 1

/-- A finite byte string, first byte first (R8). -/
abbrev Bytes := List Byte

/-- A socket id is a natural number (R27). -/
abbrev SockId := Nat

end Sys2Proof
end

