-- ==== Sys2Proof/Config.lean ====
section
/-! DEFINITION. The parameters an instance of the block fixes (00_scope.md R6) and that the spec leaves
OPEN. An OPEN parameter is an opaque constant: no proof can see its value, so a theorem holds for every
value (DESIGN CHOICE, log entry 1; safe). -/

namespace Sys2Proof

/-- The parameters of R6 on which behaviour depends. The operations take them as an argument, so that a
test can run one with concrete values; the machine itself runs with `Machine.params`. -/
structure Params where
  /-- `MAX_FRAME_LEN`: the capacity of the collect buffer in bytes (R6, R108). -/
  maxFrameLen : Nat
  /-- `LINK_MTU_RESET`: the value of `link_mtu` after reset (R6, R33). -/
  linkMtuReset : U16
  /-- `QUEUE_DEPTH`: `none` is unbounded, the spec's value; `some n` is a finite depth (R6, R123). -/
  queueDepth : Option Nat
  /-- `REL_RESERVED_STRICT`: whether `REL_PARSE` rejects set reserved bits (R6, R69). -/
  relReservedStrict : Bool
  deriving DecidableEq, Repr

/-- `MAX_FRAME_LEN - 1`, OPEN: R6 and R172 ask only for `MAX_FRAME_LEN >= 1`, so this is any natural
number (log entry 1). -/
opaque Config.maxFrameLenPred : Nat

/-- `LINK_MTU_RESET`, OPEN: any `u16` (R6, R33, D12; log entry 1). -/
opaque Config.linkMtuReset : U16

/-- `REL_RESERVED_STRICT`, OPEN: either Bool (R6, R69, D25; log entry 1). -/
opaque Config.relReservedStrict : Bool

end Sys2Proof
end

