-- ==== Sys2Proof/Syntax.lean ====
section
/-! DEFINITION. The syntax of the block's operations: one constructor of `Instr` per row of
`spec/opcode_table.json`, in the table's order (30_encoding.md R70, R71, R74, R75). A row with a bit
pattern keeps as operands the bits the pattern leaves free and the bytes that follow. -/

namespace Sys2Proof

/-- The key spaces a socket can be bound in (R27, R120). -/
inductive Space where
  | proto
  | beport
  | relport
  deriving DecidableEq, Repr

/-- The port spaces: the only spaces `PORT_DELIVER` and `PORT_FORCE_CLOSE` take. `PROTO` is not
representable, as R142 and 93_implementation_defined.md I17 ask. -/
inductive PortSpace where
  | beport
  | relport
  deriving DecidableEq, Repr

/-- The kinds of a supervisory packet: `RR` = 00, `RNR` = 01, `REJ` = 10 (R66). -/
inductive SupKind where
  | rr
  | rnr
  | rej
  deriving DecidableEq, Repr

/-- The 61 rows of the opcode table. -/
inductive Instr where
  /- Pure functions (R11): an external agent uses them by themselves. -/
  | crc32 (d : Bytes)
  | fcsAppend (p : Bytes)
  | fcsCheck (d : Bytes)
  | cobsEnc (d : Bytes)
  | cobsDec (c : Bytes)
  | swapOut (c : Bytes)
  | swapIn (f : Bytes)
  | encodeFrame (p : Bytes)
  | decodeFrame (f : Bytes)
  | encap (proto : U16) (payload : Bytes)
  | unencap (d : Bytes)
  | beBuild (port : U16) (payload : Bytes)
  | beParse (u : Bytes)
  | relBuildInfo (ns nr : Seq7) (poll : Bit1) (port : U16) (payload : Bytes)
  | relBuildSup (kind : SupKind) (nr : Seq7) (pf : Bit1)
  | relParse (u : Bytes)
  /- The stream step and its seven cases (R71, R104). -/
  | rxByte (b : Byte)
  | rxIgnored (b : Byte)
  | syncFlag
  | syncSkip (b : Byte)
  | flagEmpty
  | flagFrame
  | collectData (b : Byte)
  | collectOverflow (b : Byte)
  /- Receive chain, commands and internal operations of the switch (R70). -/
  | rxFrame (f : Bytes)
  | rxChunk (bs : Bytes)
  | bind (space : Space) (key : U16)
  | close (sid : SockId)
  | dispatch (proto : U16) (payload : Bytes)
  | enqueue (sid : SockId) (payload : Bytes)
  | txDatagram (proto : U16) (payload : Bytes)
  | send (sid : SockId) (payload : Bytes)
  | beSend (sid : SockId) (payload : Bytes)
  | relSend (sid : SockId) (payload : Bytes)
  | recv (sid : SockId)
  | ifClose
  | setMtu (v : U16)
  | setCap (en : Bool)
  | tpAttach (simplex : Bool)
  | tpDetach
  | beDemux (u : Bytes)
  | portDeliver (space : PortSpace) (port : U16) (payload : Bytes)
  | portForceClose (space : PortSpace) (port : U16)
  | relDeliver (port : U16) (payload : Bytes)
  | reset
  /- Decode classes of a protocol number (R46, R74): the datagram payload that follows the number. -/
  | protoLcp (payload : Bytes)
  | protoBeNcp (payload : Bytes)
  | protoBeData (payload : Bytes)
  | protoRelNcp (payload : Bytes)
  | protoRelCmd (payload : Bytes)
  | protoRelRsp (payload : Bytes)
  /- Decode class of a port (R47, R74). -/
  | pcmpPort (space : PortSpace) (payload : Bytes)
  /- Decode classes of byte 0 of a reliable packet (R65, R66, R69, R74): free bits of byte 0, then
  the bytes after byte 0. -/
  | relInfo (ns : Seq7) (rest : Bytes)
  | relSupRr (reserved : BitVec 4) (rest : Bytes)
  | relSupRnr (reserved : BitVec 4) (rest : Bytes)
  | relSupRej (reserved : BitVec 4) (rest : Bytes)
  | relSupKindUndefined (reserved : BitVec 4) (rest : Bytes)
  | relUndefined (high : BitVec 6) (rest : Bytes)
  /- Decode classes of a code byte of a stuffed string (R62, R74): the bytes after the code byte. -/
  | cobsCodeIllegal (rest : Bytes)
  | cobsCodeFull (rest : Bytes)
  | cobsCodeShort (code : Byte) (rest : Bytes)
  deriving DecidableEq, Repr

/-- The operations an agent can issue on `CMD`: the pure functions and the commands of R11. A stream
step belongs to the receive agent, and "an internal operation is never issued on `CMD`" (R70); cases and
decode classes are not operations at all. -/
def Instr.issuable : Instr → Bool
  | .crc32 _ | .fcsAppend _ | .fcsCheck _ | .cobsEnc _ | .cobsDec _ | .swapOut _ | .swapIn _
  | .encodeFrame _ | .decodeFrame _ | .encap _ _ | .unencap _ | .beBuild _ _ | .beParse _
  | .relBuildInfo _ _ _ _ _ | .relBuildSup _ _ _ | .relParse _
  | .rxChunk _ | .bind _ _ | .close _ | .send _ _ | .beSend _ _ | .relSend _ _ | .recv _
  | .ifClose | .setMtu _ | .setCap _ | .tpAttach _ | .tpDetach | .portForceClose _ _
  | .relDeliver _ _ | .reset => true
  | .rxByte _ | .rxIgnored _ | .syncFlag | .syncSkip _ | .flagEmpty | .flagFrame | .collectData _
  | .collectOverflow _ | .rxFrame _ | .dispatch _ _ | .enqueue _ _ | .txDatagram _ _ | .beDemux _
  | .portDeliver _ _ _
  | .protoLcp _ | .protoBeNcp _ | .protoBeData _ | .protoRelNcp _ | .protoRelCmd _ | .protoRelRsp _
  | .pcmpPort _ _ | .relInfo _ _ | .relSupRr _ _ | .relSupRnr _ _ | .relSupRej _ _
  | .relSupKindUndefined _ _ | .relUndefined _ _
  | .cobsCodeIllegal _ | .cobsCodeFull _ | .cobsCodeShort _ _ => false

end Sys2Proof
end

