-- ==== Sys2Proof/Machine/Operands.lean ====
section
/-! DEFINITION. Constants, byte order and field assembly: how each multi-byte or packed field of the
formats is built from bytes and taken apart again (00_scope.md R6, R8, R9; 30_encoding.md R65 to R68;
20_memory.md R48, R49). -/

namespace Sys2Proof.Machine

/-- `FLAG` = 0x55, "a single reserved byte" (R6, D1; log entry 15). -/
def flag : Byte := 0x55

/-- `CRC_RESIDUE`, "the CRC-32 of four zero bytes" (R6, R83). -/
def crcResidue : U32 := 0x2144DF1C

/-- The protocol numbers the source assigns (R6, R46). -/
def protoLcpNum : U16 := 0xC021
/-- `PROTO_BE_NCP` (R6). -/
def protoBeNcpNum : U16 := 0xBA29
/-- `PROTO_BE_DATA` (R6): the only key at which `BE_SWITCH` may stand (R46). -/
def protoBeDataNum : U16 := 0x3A29
/-- `PROTO_REL_NCP` (R6). -/
def protoRelNcpNum : U16 := 0xBA33
/-- `PROTO_REL_CMD` (R6). -/
def protoRelCmdNum : U16 := 0x3A33
/-- `PROTO_REL_RSP` (R6). -/
def protoRelRspNum : U16 := 0x3A35
/-- `PCMP_PORT`, the "PCMP reserved port" (R6, R47). -/
def pcmpPortNum : U16 := 0x0001

/-- The parameters this machine runs with: `MAX_FRAME_LEN` is any number from 1 up, `QUEUE_DEPTH` is
unbounded as the spec decides (R6, D15; log entries 1 and 2). -/
def params : Params where
  maxFrameLen := Config.maxFrameLenPred + 1
  linkMtuReset := Config.linkMtuReset
  queueDepth := none
  relReservedStrict := Config.relReservedStrict

/-- `s[a..b)` (R8). -/
def slice (u : Bytes) (a b : Nat) : Bytes := (u.drop a).take (b - a)

/-- `s[i]` (R8); every use stands behind the length test its rule makes. -/
def byteAt (u : Bytes) (i : Nat) : Byte := u.getD i 0

/-- `be16(v)` = `[v[15:8], v[7:0]]` (R9). -/
def be16 (v : U16) : Bytes := [v.extractLsb' 8 8, v.extractLsb' 0 8]

/-- `from_be16` of two bytes, most significant first (R9). -/
def fromBe16 (hi lo : Byte) : U16 := hi ++ lo

/-- `from_be16(u[i..i+2))`: the 16-bit big-endian field at byte offset `i` (R67). -/
def be16At (u : Bytes) (i : Nat) : U16 := fromBe16 (byteAt u i) (byteAt u (i + 1))

/-- `le32(v)`, least significant byte first: the byte order of the FCS alone (R9, R48). -/
def le32 (v : U32) : Bytes :=
  [v.extractLsb' 0 8, v.extractLsb' 8 8, v.extractLsb' 16 8, v.extractLsb' 24 8]

/-- Byte 0 of an info packet: `N(S)` in bits 7:1, discriminator 0 in bit 0 (R65). -/
def infoByte0 (ns : Seq7) : Byte := ns ++ (0 : BitVec 1)

/-- The two bits of a supervisory kind (R66). -/
def kindBits : SupKind → BitVec 2
  | .rr => 0
  | .rnr => 1
  | .rej => 2

/-- Byte 0 of a supervisory packet: reserved in 7:4, kind in 3:2, discriminator 01 in 1:0 (R66). -/
def supByte0 (reserved : BitVec 4) (kind : BitVec 2) : Byte := reserved ++ (kind ++ (1 : BitVec 2))

/-- Byte 0 of the class that is not defined: any bits 7:2, then 11 (R69, R74). -/
def undefByte0 (high : BitVec 6) : Byte := high ++ (3 : BitVec 2)

/-- Byte 1 of a reliable packet: `N(R)` in bits 7:1, poll or poll/final in bit 0 (R65, R66). -/
def ackByte (nr : Seq7) (pf : Bit1) : Byte := nr ++ pf

/-- A 7-bit field in bits 7:1 of a byte, `b >> 1` (R67). -/
def bits71 (b : Byte) : Seq7 := b.extractLsb' 1 7

/-- Bit 0 of a byte, `b & 1` (R67). -/
def bit0 (b : Byte) : Bit1 := b.extractLsb' 0 1

/-- The kind field, bits 3:2 (R67). -/
def bits32 (b : Byte) : BitVec 2 := b.extractLsb' 2 2

/-- The reserved field, bits 7:4 (R67). -/
def bits74 (b : Byte) : BitVec 4 := b.extractLsb' 4 4

/-- Bits 7:2, what the undefined class leaves free (R74). -/
def bits72 (b : Byte) : BitVec 6 := b.extractLsb' 2 6

/-- Match and mask: `v` is in the class when `v & mask = match` (R74). -/
def inClass (v mask pat : Byte) : Bool := (v &&& mask) == pat

/-- The space a port space is (R26, R40). -/
def spaceOf : PortSpace → Space
  | .beport => .beport
  | .relport => .relport

end Sys2Proof.Machine
end

