-- ==== Sys2Proof/WellFormed.lean ====
section
/-! DEFINITION. Well-formed instructions: the operand conditions of the opcode table that the types of
`Instr` do not already carry (30_encoding.md R71, R74; 42_frame_codec.md R111). -/

namespace Sys2Proof

/-- `SYNC_SKIP`, `COLLECT_DATA` and `COLLECT_OVERFLOW` are cases of a byte that is not `FLAG` (R71); a
completed frame is not empty and holds no `FLAG` (R111); `COBS_CODE_SHORT` is the code bytes 0x01 to 0xFE
(R62). Every other operand is free within its type. -/
def Instr.wf : Instr → Bool
  | .syncSkip b => b != Machine.flag
  | .collectData b => b != Machine.flag
  | .collectOverflow b => b != Machine.flag
  | .rxFrame f => !f.isEmpty && f.all (· != Machine.flag)
  | .cobsCodeShort code _ => code != 0x00 && code != 0xFF
  | .crc32 _ | .fcsAppend _ | .fcsCheck _ | .cobsEnc _ | .cobsDec _ | .swapOut _ | .swapIn _
  | .encodeFrame _ | .decodeFrame _ | .encap _ _ | .unencap _ | .beBuild _ _ | .beParse _
  | .relBuildInfo _ _ _ _ _ | .relBuildSup _ _ _ | .relParse _ | .rxByte _ | .rxIgnored _
  | .syncFlag | .flagEmpty | .flagFrame | .rxChunk _ | .bind _ _ | .close _ | .dispatch _ _
  | .enqueue _ _ | .txDatagram _ _ | .send _ _ | .beSend _ _ | .relSend _ _ | .recv _ | .ifClose
  | .setMtu _ | .setCap _ | .tpAttach _ | .tpDetach | .beDemux _ | .portDeliver _ _ _
  | .portForceClose _ _ | .relDeliver _ _ | .reset | .protoLcp _ | .protoBeNcp _ | .protoBeData _
  | .protoRelNcp _ | .protoRelCmd _ | .protoRelRsp _ | .pcmpPort _ _ | .relInfo _ _
  | .relSupRr _ _ | .relSupRnr _ _ | .relSupRej _ _ | .relSupKindUndefined _ _
  | .relUndefined _ _ | .cobsCodeIllegal _ | .cobsCodeFull _ => true

end Sys2Proof
end

