-- ==== Sys2Proof/Decode.lean ====
section
/-! DEFINITION. The decoder and, after it, the encoder of command records, and the decode classes of
the wire fields (30_encoding.md R70 to R75). The spec gives a command no binary form ("commands have no
binary encoding", D34); a record is this model's own (DESIGN CHOICE, log entry 3): one byte with the
number of the row in `opcode_table.json` (1 to 61), then, for a row with a bit pattern, the word the
pattern is over, then the remaining operands in the order of `Instr`. -/

namespace Sys2Proof

/-- Why a record is rejected. -/
inductive DecodeErr where
  /-- The record has no byte at all. -/
  | empty
  /-- The first byte is no row number of the opcode table. -/
  | unknownRow (row : Byte)
  /-- An operand's bytes are missing. -/
  | truncated
  /-- Bytes stand after the last operand. -/
  | trailing
  /-- A space byte is not one of the row's spaces (`PORT_FORCE_CLOSE` has no `PROTO`, R142). -/
  | badSpace
  /-- A supervisory kind byte is not 0, 1 or 2 (R66). -/
  | badKind
  /-- A Bool byte is not 0 or 1. -/
  | badBool
  /-- A 7-bit or one-bit operand is out of its range (I18). -/
  | outOfRange
  /-- The word does not match the row's `match` and `mask` (R74, R75). -/
  | patternMismatch
  /-- A natural number has a superfluous last digit. -/
  | nonCanonical
  /-- The operands do not meet the row's conditions (`Instr.wf`). -/
  | illFormed
  deriving DecidableEq, Repr

/-! ### Operand readers -/

/-- One byte. -/
def takeByte : Bytes → Except DecodeErr (Byte × Bytes)
  | [] => .error .truncated
  | b :: r => .ok (b, r)

/-- A 16-bit operand, big-endian (R48). -/
def takeU16 : Bytes → Except DecodeErr (U16 × Bytes)
  | hi :: lo :: r => .ok (Machine.fromBe16 hi lo, r)
  | _ => .error .truncated

/-- A natural number in base 128, least significant digit first; bit 7 says that a digit follows, and
the last digit of a number of several digits is not 0. -/
def takeNat : Bytes → Except DecodeErr (Nat × Bytes)
  | [] => .error .truncated
  | b :: r =>
    if b.toNat < 128 then .ok (b.toNat, r)
    else match takeNat r with
      | .error e => .error e
      | .ok (0, _) => .error .nonCanonical
      | .ok (n + 1, r') => .ok (b.toNat - 128 + 128 * (n + 1), r')

/-- A Bool operand. -/
def takeBool : Bytes → Except DecodeErr (Bool × Bytes)
  | [] => .error .truncated
  | b :: r => if b = 0 then .ok (false, r) else if b = 1 then .ok (true, r) else .error .badBool

/-- A space operand: 0 `PROTO`, 1 `BEPORT`, 2 `RELPORT`. -/
def takeSpace : Bytes → Except DecodeErr (Space × Bytes)
  | [] => .error .truncated
  | b :: r =>
    if b = 0 then .ok (.proto, r) else if b = 1 then .ok (.beport, r)
    else if b = 2 then .ok (.relport, r) else .error .badSpace

/-- A port space operand: 1 `BEPORT`, 2 `RELPORT`; `PROTO` is refused (R142). -/
def takePortSpace : Bytes → Except DecodeErr (PortSpace × Bytes)
  | [] => .error .truncated
  | b :: r =>
    if b = 1 then .ok (.beport, r) else if b = 2 then .ok (.relport, r) else .error .badSpace

/-- A supervisory kind operand, numbered as its two bits (R66). -/
def takeKind : Bytes → Except DecodeErr (SupKind × Bytes)
  | [] => .error .truncated
  | b :: r =>
    if b = 0 then .ok (.rr, r) else if b = 1 then .ok (.rnr, r)
    else if b = 2 then .ok (.rej, r) else .error .badKind

/-- A 7-bit operand in one byte; a value above 127 is refused (I18). -/
def takeSeq7 : Bytes → Except DecodeErr (Seq7 × Bytes)
  | [] => .error .truncated
  | b :: r => if b.toNat < 128 then .ok (b.setWidth 7, r) else .error .outOfRange

/-- A one-bit operand in one byte; a value above 1 is refused (I18). -/
def takeBit1 : Bytes → Except DecodeErr (Bit1 × Bytes)
  | [] => .error .truncated
  | b :: r => if b.toNat < 2 then .ok (b.setWidth 1, r) else .error .outOfRange

/-- The end of a record with no trailing bytes operand. -/
def finish (i : Instr) : Bytes → Except DecodeErr Instr
  | [] => .ok i
  | _ :: _ => .error .trailing

/-- A byte that must be the pattern of its row. -/
def takeExact (pat : Byte) : Bytes → Except DecodeErr Bytes
  | [] => .error .truncated
  | b :: r => if b = pat then .ok r else .error .patternMismatch

/-- A 16-bit word that must be the pattern of its row. -/
def takeExact16 (pat : U16) : Bytes → Except DecodeErr Bytes
  | hi :: lo :: r => if Machine.fromBe16 hi lo = pat then .ok r else .error .patternMismatch
  | _ => .error .truncated

/-- A byte that must be in the class `mask`, `pat` of its row (R74). -/
def takeClass (mask pat : Byte) : Bytes → Except DecodeErr (Byte × Bytes)
  | [] => .error .truncated
  | b :: r => if Machine.inClass b mask pat then .ok (b, r) else .error .patternMismatch

/-! ### The decoder -/

/-- The operands of row `row`, read from the bytes after the row number. -/
def decodeRow (row : Nat) (r : Bytes) : Except DecodeErr Instr :=
  match row with
  | 1 => .ok (.crc32 r)
  | 2 => .ok (.fcsAppend r)
  | 3 => .ok (.fcsCheck r)
  | 4 => .ok (.cobsEnc r)
  | 5 => .ok (.cobsDec r)
  | 6 => .ok (.swapOut r)
  | 7 => .ok (.swapIn r)
  | 8 => .ok (.encodeFrame r)
  | 9 => .ok (.decodeFrame r)
  | 10 => do let (p, r) ← takeU16 r; .ok (.encap p r)
  | 11 => .ok (.unencap r)
  | 12 => do let (p, r) ← takeU16 r; .ok (.beBuild p r)
  | 13 => .ok (.beParse r)
  | 14 => do
    let (ns, r) ← takeSeq7 r
    let (nr, r) ← takeSeq7 r
    let (poll, r) ← takeBit1 r
    let (port, r) ← takeU16 r
    .ok (.relBuildInfo ns nr poll port r)
  | 15 => do
    let (k, r) ← takeKind r
    let (nr, r) ← takeSeq7 r
    let (pf, r) ← takeBit1 r
    finish (.relBuildSup k nr pf) r
  | 16 => .ok (.relParse r)
  | 17 => do let (b, r) ← takeByte r; finish (.rxByte b) r
  | 18 => do let (b, r) ← takeByte r; finish (.rxIgnored b) r
  | 19 => do let r ← takeExact Machine.flag r; finish .syncFlag r
  | 20 => do let (b, r) ← takeByte r; finish (.syncSkip b) r
  | 21 => do let r ← takeExact Machine.flag r; finish .flagEmpty r
  | 22 => do let r ← takeExact Machine.flag r; finish .flagFrame r
  | 23 => do let (b, r) ← takeByte r; finish (.collectData b) r
  | 24 => do let (b, r) ← takeByte r; finish (.collectOverflow b) r
  | 25 => .ok (.rxFrame r)
  | 26 => .ok (.rxChunk r)
  | 27 => do let (sp, r) ← takeSpace r; let (k, r) ← takeU16 r; finish (.bind sp k) r
  | 28 => do let (sid, r) ← takeNat r; finish (.close sid) r
  | 29 => do let (p, r) ← takeU16 r; .ok (.dispatch p r)
  | 30 => do let (sid, r) ← takeNat r; .ok (.enqueue sid r)
  | 31 => do let (p, r) ← takeU16 r; .ok (.txDatagram p r)
  | 32 => do let (sid, r) ← takeNat r; .ok (.send sid r)
  | 33 => do let (sid, r) ← takeNat r; .ok (.beSend sid r)
  | 34 => do let (sid, r) ← takeNat r; .ok (.relSend sid r)
  | 35 => do let (sid, r) ← takeNat r; finish (.recv sid) r
  | 36 => finish .ifClose r
  | 37 => do let (v, r) ← takeU16 r; finish (.setMtu v) r
  | 38 => do let (en, r) ← takeBool r; finish (.setCap en) r
  | 39 => do let (sx, r) ← takeBool r; finish (.tpAttach sx) r
  | 40 => finish .tpDetach r
  | 41 => .ok (.beDemux r)
  | 42 => do let (sp, r) ← takePortSpace r; let (p, r) ← takeU16 r; .ok (.portDeliver sp p r)
  | 43 => do let (sp, r) ← takePortSpace r; let (p, r) ← takeU16 r; finish (.portForceClose sp p) r
  | 44 => do let (p, r) ← takeU16 r; .ok (.relDeliver p r)
  | 45 => finish .reset r
  | 46 => do let r ← takeExact16 Machine.protoLcpNum r; .ok (.protoLcp r)
  | 47 => do let r ← takeExact16 Machine.protoBeNcpNum r; .ok (.protoBeNcp r)
  | 48 => do let r ← takeExact16 Machine.protoBeDataNum r; .ok (.protoBeData r)
  | 49 => do let r ← takeExact16 Machine.protoRelNcpNum r; .ok (.protoRelNcp r)
  | 50 => do let r ← takeExact16 Machine.protoRelCmdNum r; .ok (.protoRelCmd r)
  | 51 => do let r ← takeExact16 Machine.protoRelRspNum r; .ok (.protoRelRsp r)
  | 52 => do
    let r ← takeExact16 Machine.pcmpPortNum r
    let (sp, r) ← takePortSpace r
    .ok (.pcmpPort sp r)
  | 53 => do let (b, r) ← takeClass 0x01 0x00 r; .ok (.relInfo (Machine.bits71 b) r)
  | 54 => do let (b, r) ← takeClass 0x0F 0x01 r; .ok (.relSupRr (Machine.bits74 b) r)
  | 55 => do let (b, r) ← takeClass 0x0F 0x05 r; .ok (.relSupRnr (Machine.bits74 b) r)
  | 56 => do let (b, r) ← takeClass 0x0F 0x09 r; .ok (.relSupRej (Machine.bits74 b) r)
  | 57 => do let (b, r) ← takeClass 0x0F 0x0D r; .ok (.relSupKindUndefined (Machine.bits74 b) r)
  | 58 => do let (b, r) ← takeClass 0x03 0x03 r; .ok (.relUndefined (Machine.bits72 b) r)
  | 59 => do let r ← takeExact 0x00 r; .ok (.cobsCodeIllegal r)
  | 60 => do let r ← takeExact 0xFF r; .ok (.cobsCodeFull r)
  | 61 => do let (b, r) ← takeByte r; .ok (.cobsCodeShort b r)
  | n => .error (.unknownRow (BitVec.ofNat 8 n))

/-- The decoder: total on every record, and it answers only well-formed instructions. -/
def decode : Bytes → Except DecodeErr Instr
  | [] => .error .empty
  | row :: r =>
    match decodeRow row.toNat r with
    | .error e => .error e
    | .ok i => if i.wf then .ok i else .error .illFormed

/-! ### The encoder -/

/-- The digits of a natural number in base 128; `fuel` bounds their count. -/
def encNatGo : Nat → Nat → Bytes
  | 0, n => [BitVec.ofNat 8 (n % 128)]
  | fuel + 1, n =>
    if n < 128 then [BitVec.ofNat 8 n]
    else BitVec.ofNat 8 (n % 128 + 128) :: encNatGo fuel (n / 128)

/-- A natural number as `takeNat` reads it. -/
def encNat (n : Nat) : Bytes := encNatGo n n

/-- A Bool operand. -/
def encBool (b : Bool) : Byte := if b then 1 else 0

/-- A space operand. -/
def encSpace : Space → Byte
  | .proto => 0
  | .beport => 1
  | .relport => 2

/-- A port space operand. -/
def encPortSpace : PortSpace → Byte
  | .beport => 1
  | .relport => 2

/-- A supervisory kind operand. -/
def encKind (k : SupKind) : Byte := (Machine.kindBits k).setWidth 8

/-- The record of an instruction. -/
def encode : Instr → Bytes
  | .crc32 d => 1 :: d
  | .fcsAppend p => 2 :: p
  | .fcsCheck d => 3 :: d
  | .cobsEnc d => 4 :: d
  | .cobsDec c => 5 :: c
  | .swapOut c => 6 :: c
  | .swapIn f => 7 :: f
  | .encodeFrame p => 8 :: p
  | .decodeFrame f => 9 :: f
  | .encap p payload => 10 :: (Machine.be16 p ++ payload)
  | .unencap d => 11 :: d
  | .beBuild port payload => 12 :: (Machine.be16 port ++ payload)
  | .beParse u => 13 :: u
  | .relBuildInfo ns nr poll port payload =>
    14 :: ns.setWidth 8 :: nr.setWidth 8 :: poll.setWidth 8 :: (Machine.be16 port ++ payload)
  | .relBuildSup k nr pf => [15, encKind k, nr.setWidth 8, pf.setWidth 8]
  | .relParse u => 16 :: u
  | .rxByte b => [17, b]
  | .rxIgnored b => [18, b]
  | .syncFlag => [19, Machine.flag]
  | .syncSkip b => [20, b]
  | .flagEmpty => [21, Machine.flag]
  | .flagFrame => [22, Machine.flag]
  | .collectData b => [23, b]
  | .collectOverflow b => [24, b]
  | .rxFrame f => 25 :: f
  | .rxChunk bs => 26 :: bs
  | .bind sp k => 27 :: encSpace sp :: Machine.be16 k
  | .close sid => 28 :: encNat sid
  | .dispatch p payload => 29 :: (Machine.be16 p ++ payload)
  | .enqueue sid payload => 30 :: (encNat sid ++ payload)
  | .txDatagram p payload => 31 :: (Machine.be16 p ++ payload)
  | .send sid payload => 32 :: (encNat sid ++ payload)
  | .beSend sid payload => 33 :: (encNat sid ++ payload)
  | .relSend sid payload => 34 :: (encNat sid ++ payload)
  | .recv sid => 35 :: encNat sid
  | .ifClose => [36]
  | .setMtu v => 37 :: Machine.be16 v
  | .setCap en => [38, encBool en]
  | .tpAttach sx => [39, encBool sx]
  | .tpDetach => [40]
  | .beDemux u => 41 :: u
  | .portDeliver sp p payload => 42 :: encPortSpace sp :: (Machine.be16 p ++ payload)
  | .portForceClose sp p => 43 :: encPortSpace sp :: Machine.be16 p
  | .relDeliver p payload => 44 :: (Machine.be16 p ++ payload)
  | .reset => [45]
  | .protoLcp payload => 46 :: (Machine.be16 Machine.protoLcpNum ++ payload)
  | .protoBeNcp payload => 47 :: (Machine.be16 Machine.protoBeNcpNum ++ payload)
  | .protoBeData payload => 48 :: (Machine.be16 Machine.protoBeDataNum ++ payload)
  | .protoRelNcp payload => 49 :: (Machine.be16 Machine.protoRelNcpNum ++ payload)
  | .protoRelCmd payload => 50 :: (Machine.be16 Machine.protoRelCmdNum ++ payload)
  | .protoRelRsp payload => 51 :: (Machine.be16 Machine.protoRelRspNum ++ payload)
  | .pcmpPort sp payload => 52 :: (Machine.be16 Machine.pcmpPortNum ++ encPortSpace sp :: payload)
  | .relInfo ns rest => 53 :: Machine.infoByte0 ns :: rest
  | .relSupRr res rest => 54 :: Machine.supByte0 res 0 :: rest
  | .relSupRnr res rest => 55 :: Machine.supByte0 res 1 :: rest
  | .relSupRej res rest => 56 :: Machine.supByte0 res 2 :: rest
  | .relSupKindUndefined res rest => 57 :: Machine.supByte0 res 3 :: rest
  | .relUndefined high rest => 58 :: Machine.undefByte0 high :: rest
  | .cobsCodeIllegal rest => 59 :: 0x00 :: rest
  | .cobsCodeFull rest => 60 :: 0xFF :: rest
  | .cobsCodeShort code rest => 61 :: code :: rest

/-! ### The decode classes of the wire fields (R74) -/

/-- The class of byte 0 of a reliable packet: six disjoint classes that cover every byte (R67, R74). -/
def relByte0Instr (b0 : Byte) (rest : Bytes) : Instr :=
  if Machine.inClass b0 0x01 0x00 then .relInfo (Machine.bits71 b0) rest
  else if Machine.inClass b0 0x0F 0x01 then .relSupRr (Machine.bits74 b0) rest
  else if Machine.inClass b0 0x0F 0x05 then .relSupRnr (Machine.bits74 b0) rest
  else if Machine.inClass b0 0x0F 0x09 then .relSupRej (Machine.bits74 b0) rest
  else if Machine.inClass b0 0x0F 0x0D then .relSupKindUndefined (Machine.bits74 b0) rest
  else .relUndefined (Machine.bits72 b0) rest

/-- The class of a code byte of a stuffed string, the rows tried in their `order` (R62, R75). -/
def cobsCodeInstr (code : Byte) (rest : Bytes) : Instr :=
  if code = 0x00 then .cobsCodeIllegal rest
  else if code = 0xFF then .cobsCodeFull rest
  else .cobsCodeShort code rest

/-- The class of a protocol number, where the source assigns it (R46, R74). -/
def protoNumInstr (p : U16) (payload : Bytes) : Option Instr :=
  if p = Machine.protoLcpNum then some (.protoLcp payload)
  else if p = Machine.protoBeNcpNum then some (.protoBeNcp payload)
  else if p = Machine.protoBeDataNum then some (.protoBeData payload)
  else if p = Machine.protoRelNcpNum then some (.protoRelNcp payload)
  else if p = Machine.protoRelCmdNum then some (.protoRelCmd payload)
  else if p = Machine.protoRelRspNum then some (.protoRelRsp payload)
  else none

/-! ### Words of the opcode table -/

/-- The record of a bare word of the opcode table. The table's patterns are over different fields, so a
word alone does not say which: 16 bits are a port if they are `PCMP_PORT`, else a protocol number; of the
8-bit rows the most specific pattern wins, the earlier row among equals (DESIGN CHOICE, log entry 12):
0x55 is `SYNC_FLAG`, 0x00 and 0xFF are code bytes, every other byte is byte 0 of a reliable packet. The
bits the format has above the word are 0: five more header bytes of an info packet, one more byte of the
others, the lowest port space for `PCMP_PORT`, an empty payload. -/
def tableRecord (nbits w : Nat) : Option Bytes :=
  if nbits = 16 then
    let v : U16 := BitVec.ofNat 16 w
    if v = Machine.pcmpPortNum then some (encode (.pcmpPort .beport []))
    else (protoNumInstr v []).map encode
  else if nbits = 8 then
    let b : Byte := BitVec.ofNat 8 w
    if b = Machine.flag then some (encode .syncFlag)
    else if b = 0x00 then some (encode (.cobsCodeIllegal []))
    else if b = 0xFF then some (encode (.cobsCodeFull []))
    else if Machine.inClass b 0x01 0x00 then some (encode (relByte0Instr b [0, 0, 0, 0, 0]))
    else some (encode (relByte0Instr b [0]))
  else none

/-- The instruction the decoder reads from a word of the opcode table. -/
def decodeTableWord (nbits w : Nat) : Option Instr :=
  match tableRecord nbits w with
  | none => none
  | some r => (decode r).toOption

end Sys2Proof
end

