-- ==== Sys2Proof/Machine/State.lean ====
section
/-! DEFINITION. The state of the block as plain data: the record `S` of 10_state.md R22 to R29, the
model's own input lanes, schedule and answer histories (log entries 4, 6, 7), the outcome reasons, and
the state after power-on reset (R33, R170). -/

namespace Sys2Proof.Machine

/-- The two modes of the FrameSplitter (R22). -/
inductive Mode where
  | waitSync
  | collect
  deriving DecidableEq, Repr

/-- What a protocol number is bound to (R26): a socket, or the internal best-effort port switch. -/
inductive Endpoint where
  | raw (sid : SockId)
  | beSwitch
  deriving DecidableEq, Repr

/-- A socket record (R27). -/
structure Socket where
  /-- Which registry the socket was bound in. -/
  space : Space
  /-- The protocol number or port. -/
  key : U16
  /-- False at creation, set by closing, never cleared. -/
  closed : Bool
  /-- Payloads delivered and not yet received, oldest first. -/
  queue : List Bytes
  deriving DecidableEq, Repr

/-- A partial map (R10, R26, R27): key and entry pairs with strictly rising keys; a key that is not
listed is not bound. -/
abbrev Store (α : Type) := List (Nat × α)

/-- The fault causes of the block (60_exceptions.md R152), in the order of their codes. -/
inductive Cause where
  | frameTooLong
  | decodeErrorFlagInFrame
  | decodeErrorMalformed
  | corruptFrame
  | datagramTooShort
  | unregisteredProtocol
  | bePacketMalformed
  | bePortNotOpen
  | relPortNotOpen
  | relPacketMalformed
  | queueFull
  deriving DecidableEq, Repr

/-- A diagnostic event `(code, info)` (R151). -/
structure DiagEvent where
  code : Byte
  info : Option Nat
  deriving DecidableEq, Repr

/-- What `Err(..)` can hold: a fault cause a pure function reports, `Malformed` of `COBS_DEC` (R92), or a
result error of a command (R153). -/
inductive Err where
  | cause (c : Cause)
  | malformed
  | socketClosed
  | receiveQueueEmpty
  | noSuchSocket
  | alreadyBound
  | notAttached
  | interfaceClosed
  | sendDisabled
  | payloadTooLong
  | lengthOverflow
  | notSupported
  deriving DecidableEq, Repr

/-- A parsed reliable packet (R145). -/
inductive RelPacket where
  | info (ns nr : Seq7) (poll : Bit1) (port : U16) (payload : Bytes)
  | sup (kind : SupKind) (nr : Seq7) (pf : Bit1)
  deriving DecidableEq, Repr

/-- The result of an operation, as the table of 30_encoding.md R70 types it. -/
inductive Result where
  /-- `Ok` with no value. -/
  | ok
  /-- `Ok(sid)` of `BIND`. -/
  | okSid (sid : SockId)
  /-- A plain u32 (`CRC32`). -/
  | word (w : U32)
  /-- A plain byte string (a function that cannot fail). -/
  | bytes (b : Bytes)
  /-- `Ok(Bytes)`. -/
  | okBytes (b : Bytes)
  /-- `Ok(u16, Bytes)`. -/
  | okPair (key : U16) (payload : Bytes)
  /-- `Ok(Info ..)` or `Ok(Sup ..)` of `REL_PARSE`. -/
  | okRel (p : RelPacket)
  /-- `Err(..)`. -/
  | err (e : Err)
  deriving DecidableEq, Repr

/-- Which lane the next step takes its event from: a turn of the schedule (R51; log entries 4, 6). -/
inductive Turn where
  /-- The receive agent takes the next byte of `RXB`. -/
  | rxb
  /-- An external agent's next command is taken from `CMD`. -/
  | cmd
  /-- The next record of a table row that no agent can issue, put in from outside (log entry 6). -/
  | bench
  deriving DecidableEq, Repr

/-- Why the machine stops with a fault. The spec's own faults never stop the block (R10, R155): they are
events on `DIAG`. -/
inductive Fault where
  /-- Raised by `ENQUEUE` run by itself on an id that names no open socket: an address of the space SOCK
  outside the operation's domain (R123: "always with the id of an open socket taken from a registry").
  Safe: the model stops where the spec says the operation is never called (log entry 10). -/
  | socketNotOpen (sid : SockId)
  deriving DecidableEq, Repr

/-- Why a step has no meaning. -/
inductive Refusal where
  /-- Raised by `exec`'s arm of an instruction with no meaning yet. Safe. -/
  | notModelled (mnemonic : String)
  /-- Raised by `step` for a record the decoder rejects (log entry 3). Safe: the record is no operation
  of the block. -/
  | undecodable (e : DecodeErr)
  /-- Raised by `step` for a record on `CMD` of a row no agent can issue (R70: "An internal operation is
  never issued on `CMD`"). Safe. -/
  | notIssuable
  deriving DecidableEq, Repr

/-- The state of the machine. -/
structure State where
  /-- `S.mode` (R22). -/
  mode : Mode
  /-- `S.buf`, the collect buffer (R23; the space BUF of R41). -/
  buf : Bytes
  /-- `S.link_mtu` (R24). -/
  linkMtu : U16
  /-- `S.cap_en` (R24). -/
  capEn : Bool
  /-- `S.be_simplex` (R24). -/
  beSimplex : Bool
  /-- `S.if_open` (R25). -/
  ifOpen : Bool
  /-- `S.proto` (R26; the space PROTO of R42). -/
  proto : Store Endpoint
  /-- `S.beport` (R26; the space BEPORT of R43). -/
  beport : Store SockId
  /-- `S.relport` (R26; the space RELPORT of R43). -/
  relport : Store SockId
  /-- `S.sock` (R27; the space SOCK of R40). -/
  sock : Store Socket
  /-- `S.next_sid` (R28). -/
  nextSid : SockId
  /-- `S.txb`, the history of `TXB` (R29). -/
  txb : Bytes
  /-- `S.cap`, the history of `CAP` (R29). -/
  cap : List Bytes
  /-- `S.diag`, the history of `DIAG` (R29, R151). -/
  diag : List DiagEvent
  /-- `S.bs_closed`, the number of tokens emitted on `BS_CLOSE` (R29). -/
  bsClosed : Nat
  /-- Model's own: the history of results answered on `CMD` (R20; log entry 7). -/
  cmdOut : List Result
  /-- Model's own: the history of results answered on `RCV` (R20, R127; log entry 7). -/
  rcvOut : List Result
  /-- Model's own: bytes offered on `RXB` and not yet taken (R34, R45; log entry 4). -/
  rxbIn : Bytes
  /-- Model's own: records offered on `CMD` and not yet taken (R20; log entry 4). -/
  cmdIn : List Bytes
  /-- Model's own: records of rows no agent can issue, put in from outside (log entry 6). -/
  benchIn : List Bytes
  /-- Model's own: the turns to come, the schedule of R34 and R51 (log entry 4). -/
  sched : List Turn
  deriving DecidableEq, Repr

/-- Power-on reset (R33, R170): "the values are those of freshly constructed objects with nothing bound".
The lanes, the schedule and the answer histories are the model's own and start empty (DESIGN CHOICE, log
entries 4, 6, 7). -/
def State.reset : State where
  mode := .waitSync
  buf := []
  linkMtu := Config.linkMtuReset
  capEn := false
  beSimplex := false
  ifOpen := true
  proto := []
  beport := []
  relport := []
  sock := []
  nextSid := 0
  txb := []
  cap := []
  diag := []
  bsClosed := 0
  cmdOut := []
  rcvOut := []
  rxbIn := []
  cmdIn := []
  benchIn := []
  sched := []

/-- What a meaning answers. -/
abbrev Out := Host.Outcome State Fault Refusal

end Sys2Proof.Machine
end

