-- ==== Sys2Proof/Machine/Store.lean ====
section
/-! DEFINITION. The operations on a partial map (00_scope.md R10: `T[k]`, `T[k] <- v`, `delete T[k]`,
`k in T`) and its canonical form. An unlisted key reads as nothing (R42; log entry 18). -/

namespace Sys2Proof.Machine

/-- `T[k]`, nothing where `k` is not bound. -/
def Store.find {α : Type} (k : Nat) : Store α → Option α
  | [] => none
  | (k', v) :: t => if k' = k then some v else Store.find k t

/-- `k in T`. -/
def Store.has {α : Type} (k : Nat) (t : Store α) : Bool := (Store.find k t).isSome

/-- `T[k] <- v`: insert or replace, keeping the keys rising. -/
def Store.set {α : Type} (k : Nat) (v : α) : Store α → Store α
  | [] => [(k, v)]
  | (k', v') :: t =>
    if k < k' then (k, v) :: (k', v') :: t
    else if k = k' then (k, v) :: t
    else (k', v') :: Store.set k v t

/-- `delete T[k]`. -/
def Store.del {α : Type} (k : Nat) (t : Store α) : Store α := t.filter (fun p => p.1 != k)

/-- `T[k] <- f(T[k])` where `k` is bound; nothing happens where it is not. -/
def Store.upd {α : Type} (k : Nat) (f : α → α) : Store α → Store α
  | [] => []
  | (k', v) :: t => if k' = k then (k', f v) :: t else (k', v) :: Store.upd k f t

/-- The bound keys, rising. -/
def Store.keys {α : Type} (t : Store α) : List Nat := t.map (·.1)

/-- The canonical form: keys strictly rising. -/
def Store.wf {α : Type} : Store α → Bool
  | [] => true
  | (k, _) :: t => t.all (fun p => decide (k < p.1)) && Store.wf t

/-- Every key is a 16-bit number (R26, R42, R43). -/
def Store.keys16 {α : Type} (t : Store α) : Bool := t.all (fun p => decide (p.1 < 65536))

/-- The keyed spaces of 20_memory.md R40 are in canonical form: equal maps are equal lists, the
registries have 16-bit keys. (BUF is a byte string and canonical by its type.) -/
def Memory.wf (s : State) : Bool :=
  Store.wf s.proto && Store.keys16 s.proto && (Store.wf s.beport && Store.keys16 s.beport)
    && (Store.wf s.relport && Store.keys16 s.relport) && Store.wf s.sock

end Sys2Proof.Machine
end

