-- ==== Sys2Proof/Machine/Flags.lean ====
section
/-! DEFINITION. What is read off the one-bit state elements and the registries (10_state.md R31: the block
has no condition codes): whether the best-effort switch is attached, whether a key is bound, the
best-effort MTU, and which case of `RX_BYTE` a byte selects (30_encoding.md R71). -/

namespace Sys2Proof.Machine

/-- `S.proto[PROTO_BE_DATA] is BE_SWITCH` (R120, R138, R141). -/
def attached (s : State) : Bool := Store.find protoBeDataNum.toNat s.proto == some .beSwitch

/-- `key in table(space)` (R120). -/
def bound (space : Space) (key : U16) (s : State) : Bool :=
  match space with
  | .proto => Store.has key.toNat s.proto
  | .beport => Store.has key.toNat s.beport
  | .relport => Store.has key.toNat s.relport

/-- `table(space)[port]` of a port space (R140, R142). -/
def portEntry (space : PortSpace) (port : U16) (s : State) : Option SockId :=
  match space with
  | .beport => Store.find port.toNat s.beport
  | .relport => Store.find port.toNat s.relport

/-- The record of a socket that is in the store and not closed. -/
def openSocket (sid : SockId) (s : State) : Option Socket :=
  match Store.find sid s.sock with
  | none => none
  | some k => if k.closed then none else some k

/-- `BE_MTU` (R148). -/
def beMtu (s : State) : Nat :=
  if s.beSimplex then 0 else if 4 ≤ s.linkMtu.toNat then s.linkMtu.toNat - 4 else 0

/-- The seven cases of `RX_BYTE` (R71). -/
inductive RxCase where
  | ignored
  | syncSkip
  | syncFlag
  | collectData
  | collectOverflow
  | flagEmpty
  | flagFrame
  deriving DecidableEq, Repr

/-- Which case a received byte selects: it "depends on the byte, `S.mode`, and the fill of `S.buf`", and on
`S.if_open` (R71, R104). -/
def rxCase (P : Params) (b : Byte) (s : State) : RxCase :=
  if !s.ifOpen then .ignored
  else match s.mode with
    | .waitSync => if b ≠ flag then .syncSkip else .syncFlag
    | .collect =>
      if b ≠ flag then
        if s.buf.length < P.maxFrameLen then .collectData else .collectOverflow
      else if s.buf = [] then .flagEmpty else .flagFrame

end Sys2Proof.Machine
end

