-- ==== Sys2Proof/Machine/Ops.lean ====
section
/-! DEFINITION. The named operations on the state that several meanings share: fault entry (60_exceptions.md
R155), the output ports (10_state.md R29), answers, the collect buffer (R41), socket queues (R44) and the
closing of a socket (44_protocol_switch.md R121). There is no return from a fault (R156). -/

namespace Sys2Proof.Machine

/-- The code of a fault cause (R152). -/
def causeCode : Cause → Byte
  | .frameTooLong => 0x01
  | .decodeErrorFlagInFrame => 0x02
  | .decodeErrorMalformed => 0x03
  | .corruptFrame => 0x04
  | .datagramTooShort => 0x05
  | .unregisteredProtocol => 0x06
  | .bePacketMalformed => 0x07
  | .bePortNotOpen => 0x08
  | .relPortNotOpen => 0x09
  | .relPacketMalformed => 0x0A
  | .queueFull => 0x0B

/-- Fault entry, `raise F(info)` (R155): one event is appended to `DIAG`; the changes the step has already
made are kept, nothing is saved and control goes nowhere. The caller abandons the unit by doing nothing
after it. -/
def raise (c : Cause) (info : Option Nat) (s : State) : State :=
  { s with diag := s.diag ++ [{ code := causeCode c, info := info }] }

/-- A result on port `CMD` (R20). -/
def answer (r : Result) (s : State) : State := { s with cmdOut := s.cmdOut ++ [r] }

/-- A result on port `RCV` (R20, R127). -/
def answerRcv (r : Result) (s : State) : State := { s with rcvOut := s.rcvOut ++ [r] }

/-- `emit(TXB, w)`: all bytes at once (R55, R124). -/
def emitTxb (w : Bytes) (s : State) : State := { s with txb := s.txb ++ w }

/-- `emit(BS_CLOSE, token)` (R128). -/
def emitBsClose (s : State) : State := { s with bsClosed := s.bsClosed + 1 }

/-- The capture tap (R126): if `S.cap_en`, one record of the direction byte and the datagram. -/
def capture (dir : Byte) (dg : Bytes) (s : State) : State :=
  if s.capEn then { s with cap := s.cap ++ [dir :: dg] } else s

/-- The direction byte of a received datagram (R126). -/
def dirReceived : Byte := 0x00

/-- The direction byte of a sent datagram (R126). -/
def dirSent : Byte := 0x01

/-- `MemWrite(BUF, len(S.buf), 1, b)` (R10, R41). -/
def bufAppend (b : Byte) (s : State) : State := { s with buf := s.buf ++ [b] }

/-- Replace a socket's queue. -/
def Socket.withQueue (q : List Bytes) (k : Socket) : Socket := { k with queue := q }

/-- `push` at the tail of a socket's queue (R44). -/
def pushQueue (sid : SockId) (payload : Bytes) (s : State) : State :=
  { s with sock := Store.upd sid (fun k => Socket.withQueue (k.queue ++ [payload]) k) s.sock }

/-- The number of payloads in a socket's queue (R123). -/
def queueLen (sid : SockId) (s : State) : Nat :=
  match Store.find sid s.sock with
  | none => 0
  | some k => k.queue.length

/-- Whether a queue of `n` payloads is full (R123); never with the unbounded depth. -/
def queueIsFull (P : Params) (n : Nat) : Bool :=
  match P.queueDepth with
  | none => false
  | some depth => n == depth

/-- `ENQUEUE(sid, payload)` (R123): a full queue keeps what it had and the payload is dropped. -/
def enqueueOp (P : Params) (sid : SockId) (payload : Bytes) (s : State) : State :=
  if queueIsFull P (queueLen sid s) then raise .queueFull (some sid) s else pushQueue sid payload s

/-- `delete table(space)[key]` (R121). -/
def deleteEntry (space : Space) (key : U16) (s : State) : State :=
  match space with
  | .proto => { s with proto := Store.del key.toNat s.proto }
  | .beport => { s with beport := Store.del key.toNat s.beport }
  | .relport => { s with relport := Store.del key.toNat s.relport }

/-- A socket record after closing: the flag is set, the queue is discarded (R121). -/
def Socket.shut (k : Socket) : Socket := { k with closed := true, queue := [] }

/-- `CLOSE_SOCK(sid)` (R121): an open socket is closed, emptied and unregistered; a closed one is left as
it is. -/
def closeSock (sid : SockId) (s : State) : State :=
  match Store.find sid s.sock with
  | none => s
  | some k =>
    if k.closed then s
    else deleteEntry k.space k.key { s with sock := Store.upd sid Socket.shut s.sock }

/-- `CLOSE_SOCK` of each id in turn (R128, R138). -/
def closeAll (sids : List SockId) (s : State) : State := sids.foldl (fun s sid => closeSock sid s) s

/-- `RESET` (R171): every element of R33 but the output histories, which "are not erased". The model's
lanes and schedule are inputs, not state of the block, and stay (log entry 14). -/
def resetOp (P : Params) (s : State) : State :=
  { s with
    mode := .waitSync
    buf := []
    linkMtu := P.linkMtuReset
    capEn := false
    beSimplex := false
    ifOpen := true
    proto := []
    beport := []
    relport := []
    sock := []
    nextSid := 0 }

/-- A command that answers: the new state with the result on `CMD`. -/
def reply (p : State × Result) : Out := .next (answer p.2 p.1)

/-- A pure function (R11) reads no state and writes none; its result goes out on `CMD`. -/
def replyPure (r : Result) (s : State) : Out := .next (answer r s)

end Sys2Proof.Machine
end

