-- ==== Sys2Proof/Machine/Crc.lean ====
section
/-! DEFINITION. CRC-32 and the frame check sequence: `CRC32`, `FCS_APPEND`, `FCS_CHECK` (40_crc_fcs.md).
The CRC's parameters are the spec's decision D2 from general knowledge G1 (log entry 16). -/

namespace Sys2Proof.Machine

/-- The reflected generator polynomial (R80). -/
def crcPoly : U32 := 0xEDB88320

/-- The inner loop's body: one bit (R80). -/
def crcBit (r : U32) : U32 := if r.getLsbD 0 then (r >>> 1) ^^^ crcPoly else r >>> 1

/-- `n` times `crcBit`. -/
def crcBits : Nat → U32 → U32
  | 0, r => r
  | n + 1, r => crcBits n (crcBit r)

/-- One byte: exclusive or into the low end of the register, then eight bits (R80). -/
def crcByte (r : U32) (b : Byte) : U32 := crcBits 8 (r ^^^ b.setWidth 32)

/-- The register after the bytes of `d`, from any start. -/
def crcRun (r : U32) (d : Bytes) : U32 := d.foldl crcByte r

/-- `CRC32(d)` (R80). -/
def crc32 (d : Bytes) : U32 := crcRun 0xFFFFFFFF d ^^^ 0xFFFFFFFF

/-- `FCS_APPEND(p)` (R82): the CRC goes little-endian. -/
def fcsAppend (p : Bytes) : Bytes := p ++ le32 (crc32 p)

/-- `FCS_CHECK(d)` (R83). -/
def fcsCheck (d : Bytes) : Except Cause Bytes :=
  if d.length < 4 then .error .corruptFrame
  else if crc32 d ≠ crcResidue then .error .corruptFrame
  else .ok (slice d 0 (d.length - 4))

/-- The result of a pure function that answers `Ok(Bytes)` or a fault cause (R70). -/
def bytesResult : Except Cause Bytes → Result
  | .ok b => .okBytes b
  | .error c => .err (.cause c)

/-- CRC32 (R80). -/
def execCrc32 (d : Bytes) (s : State) : Out := replyPure (.word (crc32 d)) s

/-- FCS_APPEND (R82). -/
def execFcsAppend (p : Bytes) (s : State) : Out := replyPure (.bytes (fcsAppend p)) s

/-- FCS_CHECK (R83). -/
def execFcsCheck (d : Bytes) (s : State) : Out := replyPure (bytesResult (fcsCheck d)) s

end Sys2Proof.Machine
end

