-- ==== Sys2Proof/Machine/Stuffing.lean ====
section
/-! DEFINITION. Zero-elimination stuffing and the FLAG swap: `COBS_ENC`, `COBS_DEC`, `SWAP_OUT`, `SWAP_IN`
(41_stuffing.md, 30_encoding.md R62). The algorithm is the spec's decision D3, D4 from general knowledge G2
(log entry 16). -/

namespace Sys2Proof.Machine

/-- `d` split at its zero bytes: `k` zeros give `k + 1` zero-free segments (R90). -/
def segments : Bytes → List Bytes
  | [] => [[]]
  | b :: d =>
    match segments d with
    | [] => [[b]]
    | s :: ss => if b = 0 then [] :: s :: ss else (b :: s) :: ss

/-- One group: code byte `len + 1`, then the data bytes (R62). -/
def group (s : Bytes) : Bytes := BitVec.ofNat 8 (s.length + 1) :: s

/-- The loop of `seg` (R90): blocks of 254 bytes under code 0xFF, then the rest as a final group; `emit`
says whether an empty rest still gets its group. `fuel` bounds the number of blocks. -/
def segGo : Nat → Bytes → Bool → Bytes
  | 0, s, emit => if emit || !s.isEmpty then group s else []
  | fuel + 1, s, emit =>
    if 254 ≤ s.length then 0xFF :: (s.take 254 ++ segGo fuel (s.drop 254) emit)
    else if emit || !s.isEmpty then group s else []

/-- `seg(s, last)` (R90): the final group is left out only for a last segment that is not empty and whose
length is a multiple of 254. -/
def seg (s : Bytes) (last : Bool) : Bytes := segGo s.length s (!last || s.isEmpty)

/-- The segments' encodings in order, the last one marked (R90). -/
def encSegments : List Bytes → Bytes
  | [] => []
  | [s] => seg s true
  | s :: s' :: ss => seg s false ++ encSegments (s' :: ss)

/-- `COBS_ENC(d)` (R90). -/
def cobsEnc (d : Bytes) : Bytes := encSegments (segments d)

/-- The loop of `COBS_DEC` on what is left of the string (R92); `none` is `Err(Malformed)`. `fuel` bounds
the number of groups. -/
def cobsDecGo : Nat → Bytes → Option Bytes
  | 0, _ => none
  | _ + 1, [] => none
  | fuel + 1, code :: rest =>
    if code = 0 then none
    else
      let n := code.toNat - 1
      if rest.length < n then none
      else if (rest.take n).any (· == 0) then none
      else if (rest.drop n).isEmpty then some (rest.take n)
      else
        match cobsDecGo fuel (rest.drop n) with
        | none => none
        | some out => some (rest.take n ++ ((if code ≠ 0xFF then [0] else []) ++ out))

/-- `COBS_DEC(c)` (R92): `none` is `Err(Malformed)`. -/
def cobsDec (c : Bytes) : Option Bytes := cobsDecGo c.length c

/-- `SWAP_OUT(c)` (R94). -/
def swapOut (c : Bytes) : Bytes := c.map (fun b => if b = flag then 0x00 else b)

/-- `SWAP_IN(f)` (R95). -/
def swapIn (f : Bytes) : Bytes := f.map (fun b => if b = 0x00 then flag else b)

/-- The result of `COBS_DEC` (R70). -/
def cobsResult : Option Bytes → Result
  | some b => .okBytes b
  | none => .err .malformed

/-- COBS_ENC (R90). -/
def execCobsEnc (d : Bytes) (s : State) : Out := replyPure (.bytes (cobsEnc d)) s

/-- COBS_DEC (R92). -/
def execCobsDec (c : Bytes) (s : State) : Out := replyPure (cobsResult (cobsDec c)) s

/-- SWAP_OUT (R94). -/
def execSwapOut (c : Bytes) (s : State) : Out := replyPure (.bytes (swapOut c)) s

/-- SWAP_IN (R95). -/
def execSwapIn (f : Bytes) (s : State) : Out := replyPure (.bytes (swapIn f)) s

end Sys2Proof.Machine
end

