-- ==== Sys2Proof/Machine/Frame.lean ====
section
/-! DEFINITION. The Frame Codec's pure functions: `ENCODE_FRAME`, `DECODE_FRAME` (42_frame_codec.md R100,
R102). -/

namespace Sys2Proof.Machine

/-- `ENCODE_FRAME(p)` (R100): a whole wire frame, with both `FLAG` bytes. -/
def encodeFrame (p : Bytes) : Bytes := [flag] ++ swapOut (cobsEnc (fcsAppend p)) ++ [flag]

/-- `DECODE_FRAME(f)` on frame contents (R102): the first test that fails is reported (R154). -/
def decodeFrame (f : Bytes) : Except Cause Bytes :=
  if f.any (· == flag) then .error .decodeErrorFlagInFrame
  else
    match cobsDec (swapIn f) with
    | none => .error .decodeErrorMalformed
    | some d => fcsCheck d

/-- ENCODE_FRAME (R100). -/
def execEncodeFrame (p : Bytes) (s : State) : Out := replyPure (.bytes (encodeFrame p)) s

/-- DECODE_FRAME (R102). -/
def execDecodeFrame (f : Bytes) (s : State) : Out := replyPure (bytesResult (decodeFrame f)) s

end Sys2Proof.Machine
end

