-- ==== Sys2Proof/Machine/Datagram.lean ====
section
/-! DEFINITION. The datagram header: `ENCAP`, `UNENCAP` (43_datagram_header.md). -/

namespace Sys2Proof.Machine

/-- `ENCAP(proto, payload)` (R115). -/
def encap (proto : U16) (payload : Bytes) : Bytes := be16 proto ++ payload

/-- `UNENCAP(d)` (R116). -/
def unencap (d : Bytes) : Except Cause (U16 × Bytes) :=
  if d.length < 2 then .error .datagramTooShort
  else .ok (be16At d 0, slice d 2 d.length)

/-- The result of a function that answers `Ok(u16, Bytes)` or a fault cause (R70). -/
def pairResult : Except Cause (U16 × Bytes) → Result
  | .ok (k, b) => .okPair k b
  | .error c => .err (.cause c)

/-- ENCAP (R115). -/
def execEncap (proto : U16) (payload : Bytes) (s : State) : Out :=
  replyPure (.bytes (encap proto payload)) s

/-- UNENCAP (R116). -/
def execUnencap (d : Bytes) (s : State) : Out := replyPure (pairResult (unencap d)) s

end Sys2Proof.Machine
end

