-- ==== Sys2Proof/Machine/Packet.lean ====
section
/-! DEFINITION. The packet formats of the two transports: `BE_BUILD`, `BE_PARSE`, `REL_BUILD_INFO`,
`REL_BUILD_SUP`, `REL_PARSE` (45_port_switch.md R135, R136, R143 to R145). -/

namespace Sys2Proof.Machine

/-- `BE_BUILD(port, payload)` (R135): `none` is `Err(LengthOverflow)`. -/
def beBuild (port : U16) (payload : Bytes) : Option Bytes :=
  if payload.length + 4 > 0xFFFF then none
  else some (be16 port ++ be16 (BitVec.ofNat 16 (payload.length + 4)) ++ payload)

/-- `BE_PARSE(u)` (R136). -/
def beParse (u : Bytes) : Except Cause (U16 × Bytes) :=
  if u.length < 4 then .error .bePacketMalformed
  else if (be16At u 2).toNat < 4 then .error .bePacketMalformed
  else if (be16At u 2).toNat > u.length then .error .bePacketMalformed
  else .ok (be16At u 0, slice u 4 (be16At u 2).toNat)

/-- `REL_BUILD_INFO(ns, nr, poll, port, payload)` (R143): `none` is `Err(LengthOverflow)`. -/
def relBuildInfo (ns nr : Seq7) (poll : Bit1) (port : U16) (payload : Bytes) : Option Bytes :=
  if payload.length + 6 > 0xFFFF then none
  else some ([infoByte0 ns, ackByte nr poll] ++ be16 port
    ++ be16 (BitVec.ofNat 16 (payload.length + 6)) ++ payload)

/-- `REL_BUILD_SUP(kind, nr, pf)` (R144). -/
def relBuildSup (kind : SupKind) (nr : Seq7) (pf : Bit1) : Bytes :=
  [supByte0 0 (kindBits kind), ackByte nr pf]

/-- The supervisory kind two bits stand for; 11 is not defined (R66, R69). -/
def kindOf (k : BitVec 2) : Option SupKind :=
  if k = 0 then some .rr else if k = 1 then some .rnr else if k = 2 then some .rej else none

/-- The info branch of `REL_PARSE` (R145). -/
def relParseInfo (u : Bytes) : Except Cause RelPacket :=
  if u.length < 6 then .error .relPacketMalformed
  else if (be16At u 4).toNat < 6 then .error .relPacketMalformed
  else if (be16At u 4).toNat > u.length then .error .relPacketMalformed
  else .ok (.info (bits71 (byteAt u 0)) (bits71 (byteAt u 1)) (bit0 (byteAt u 1)) (be16At u 2)
    (slice u 6 (be16At u 4).toNat))

/-- The supervisory branch of `REL_PARSE` (R145); `strict` is `REL_RESERVED_STRICT` (R69). -/
def relParseSup (strict : Bool) (u : Bytes) : Except Cause RelPacket :=
  if strict && bits74 (byteAt u 0) != 0 then .error .relPacketMalformed
  else
    match kindOf (bits32 (byteAt u 0)) with
    | none => .error .relPacketMalformed
    | some k => .ok (.sup k (bits71 (byteAt u 1)) (bit0 (byteAt u 1)))

/-- `REL_PARSE(u)` (R145). -/
def relParse (P : Params) (u : Bytes) : Except Cause RelPacket :=
  if u.length < 2 then .error .relPacketMalformed
  else if inClass (byteAt u 0) 0x01 0x00 then relParseInfo u
  else if inClass (byteAt u 0) 0x03 0x01 then relParseSup P.relReservedStrict u
  else .error .relPacketMalformed

/-- The result of a builder that can refuse with `LengthOverflow` (R70, R153). -/
def buildResult : Option Bytes → Result
  | some b => .okBytes b
  | none => .err .lengthOverflow

/-- The result of `REL_PARSE` (R70). -/
def relResult : Except Cause RelPacket → Result
  | .ok p => .okRel p
  | .error c => .err (.cause c)

/-- BE_BUILD (R135). -/
def execBeBuild (port : U16) (payload : Bytes) (s : State) : Out :=
  replyPure (buildResult (beBuild port payload)) s

/-- BE_PARSE (R136). -/
def execBeParse (u : Bytes) (s : State) : Out := replyPure (pairResult (beParse u)) s

/-- REL_BUILD_INFO (R143). -/
def execRelBuildInfo (ns nr : Seq7) (poll : Bit1) (port : U16) (payload : Bytes) (s : State) : Out :=
  replyPure (buildResult (relBuildInfo ns nr poll port payload)) s

/-- REL_BUILD_SUP (R144). -/
def execRelBuildSup (kind : SupKind) (nr : Seq7) (pf : Bit1) (s : State) : Out :=
  replyPure (.bytes (relBuildSup kind nr pf)) s

/-- REL_PARSE (R145). -/
def execRelParse (u : Bytes) (s : State) : Out := replyPure (relResult (relParse params u)) s

end Sys2Proof.Machine
end

