-- ==== Sys2Proof/Machine/Port.lean ====
section
/-! DEFINITION. The port switch of the transports and the receive half of the protocol switch: `ENQUEUE`,
`PORT_DELIVER`, `BE_DEMUX`, `DISPATCH`, `REL_DELIVER`, `TP_ATTACH`, `TP_DETACH`, `PORT_FORCE_CLOSE`
(44_protocol_switch.md R122, R123; 45_port_switch.md R137 to R140, R142, R146). -/

namespace Sys2Proof.Machine

/-- The cause of a packet for an unbound port (R140). -/
def portNotOpen : PortSpace → Cause
  | .beport => .bePortNotOpen
  | .relport => .relPortNotOpen

/-- `PORT_DELIVER(space, port, payload)` (R140): exact match of all 16 bits, else the payload is dropped. -/
def portDeliverOp (P : Params) (space : PortSpace) (port : U16) (payload : Bytes) (s : State) : State :=
  match portEntry space port s with
  | none => raise (portNotOpen space) (some port.toNat) s
  | some sid => enqueueOp P sid payload s

/-- `BE_DEMUX(u)` (R139). -/
def beDemuxOp (P : Params) (u : Bytes) (s : State) : State :=
  match beParse u with
  | .error _ => raise .bePacketMalformed (some u.length) s
  | .ok (port, payload) => portDeliverOp P .beport port payload s

/-- `DISPATCH(proto, payload)` (R122): routing is by exact match against the registry alone; an unbound
number is dropped and nothing is sent in reply (R131). -/
def dispatchOp (P : Params) (proto : U16) (payload : Bytes) (s : State) : State :=
  match Store.find proto.toNat s.proto with
  | none => raise .unregisteredProtocol (some proto.toNat) s
  | some (.raw sid) => enqueueOp P sid payload s
  | some .beSwitch => beDemuxOp P payload s

/-- `TP_ATTACH(simplex)` (R137). -/
def tpAttachOp (simplex : Bool) (s : State) : State × Result :=
  if !s.ifOpen then (s, .err .interfaceClosed)
  else if Store.has protoBeDataNum.toNat s.proto then (s, .err .alreadyBound)
  else ({ s with proto := Store.set protoBeDataNum.toNat .beSwitch s.proto, beSimplex := simplex }, .ok)

/-- The state after a successful `TP_DETACH` (R138): every best-effort port socket closed, the switch
removed. -/
def detach (s : State) : State :=
  let s1 := closeAll (s.beport.map (·.2)) s
  { s1 with proto := Store.del protoBeDataNum.toNat s1.proto, beSimplex := false }

/-- `TP_DETACH` (R138). -/
def tpDetachOp (s : State) : State × Result :=
  if !attached s then (s, .err .notAttached) else (detach s, .ok)

/-- `PORT_FORCE_CLOSE(space, port)` (R142). -/
def portForceCloseOp (space : PortSpace) (port : U16) (s : State) : State :=
  match portEntry space port s with
  | none => s
  | some sid => closeSock sid s

/-- DISPATCH (R122). -/
def execDispatch (proto : U16) (payload : Bytes) (s : State) : Out :=
  .next (dispatchOp params proto payload s)

/-- ENQUEUE (R123), "always with the id of an open socket taken from a registry": run by itself on any
other id it stops, outside its domain (log entry 10). -/
def execEnqueue (sid : SockId) (payload : Bytes) (s : State) : Out :=
  match openSocket sid s with
  | none => .fault (.socketNotOpen sid)
  | some _ => .next (enqueueOp params sid payload s)

/-- BE_DEMUX (R139). -/
def execBeDemux (u : Bytes) (s : State) : Out := .next (beDemuxOp params u s)

/-- PORT_DELIVER (R140). -/
def execPortDeliver (space : PortSpace) (port : U16) (payload : Bytes) (s : State) : Out :=
  .next (portDeliverOp params space port payload s)

/-- TP_ATTACH (R137). -/
def execTpAttach (simplex : Bool) (s : State) : Out := reply (tpAttachOp simplex s)

/-- TP_DETACH (R138). -/
def execTpDetach (s : State) : Out := reply (tpDetachOp s)

/-- PORT_FORCE_CLOSE (R142): the result is `Ok` always. -/
def execPortForceClose (space : PortSpace) (port : U16) (s : State) : Out :=
  reply (portForceCloseOp space port s, .ok)

/-- REL_DELIVER (R146): the result is `Ok` even where the port is unbound. -/
def execRelDeliver (port : U16) (payload : Bytes) (s : State) : Out :=
  reply (portDeliverOp params .relport port payload s, .ok)

end Sys2Proof.Machine
end

