-- ==== Sys2Proof/Machine/Switch.lean ====
section
/-! DEFINITION. Sockets and the transmit half of the switch: `BIND`, `CLOSE`, `TX_DATAGRAM`, `SEND` in its
three forms, `RECV`, `IF_CLOSE`, `SET_MTU`, `SET_CAP`, `RESET` (44_protocol_switch.md R120 to R130;
45_port_switch.md R141, R147; 70_reset_and_hazards.md R171). -/

namespace Sys2Proof.Machine

/-- A new socket's record (R120). -/
def newSocket (space : Space) (key : U16) : Socket :=
  { space := space, key := key, closed := false, queue := [] }

/-- The registry entry of a new socket (R120). -/
def register (space : Space) (key : U16) (sid : SockId) (s : State) : State :=
  match space with
  | .proto => { s with proto := Store.set key.toNat (.raw sid) s.proto }
  | .beport => { s with beport := Store.set key.toNat sid s.beport }
  | .relport => { s with relport := Store.set key.toNat sid s.relport }

/-- The state after a successful `BIND` (R120). -/
def bindNew (space : Space) (key : U16) (s : State) : State :=
  register space key s.nextSid
    { s with nextSid := s.nextSid + 1, sock := Store.set s.nextSid (newSocket space key) s.sock }

/-- `BIND(space, key)` (R120). -/
def bindOp (space : Space) (key : U16) (s : State) : State × Result :=
  if !s.ifOpen then (s, .err .interfaceClosed)
  else if space = .beport ∧ !attached s then (s, .err .notAttached)
  else if bound space key s then (s, .err .alreadyBound)
  else (bindNew space key s, .okSid s.nextSid)

/-- `CLOSE(sid)` (R121). -/
def closeOp (sid : SockId) (s : State) : State × Result :=
  if !Store.has sid s.sock then (s, .err .noSuchSocket) else (closeSock sid s, .ok)

/-- `TX_DATAGRAM(proto, payload)` (R124): encapsulate, capture, encode, transmit the whole frame. -/
def txDatagramOp (proto : U16) (payload : Bytes) (s : State) : State :=
  emitTxb (encodeFrame (encap proto payload)) (capture dirSent (encap proto payload) s)

/-- `SEND` on a protocol socket (R125): no MTU check. -/
def sendProto (key : U16) (payload : Bytes) (s : State) : State × Result :=
  (txDatagramOp key payload s, .ok)

/-- `SEND` on a best-effort port socket (R141). The build cannot overflow, since
`len(payload) <= BE_MTU <= 0xFFFF - 4`. -/
def sendBe (key : U16) (payload : Bytes) (s : State) : State × Result :=
  if !attached s then (s, .err .notAttached)
  else if s.beSimplex then (s, .err .sendDisabled)
  else if payload.length > beMtu s then (s, .err .payloadTooLong)
  else
    match beBuild key payload with
    | none => (s, .err .lengthOverflow)
    | some pkt => (txDatagramOp protoBeDataNum pkt s, .ok)

/-- `SEND` on a reliable port socket (R147): receive-only in this block. -/
def sendRel (s : State) : State × Result := (s, .err .notSupported)

/-- The one command `SEND(sid, payload)` (R125), continued by the space of the socket (R75, R141, R147). -/
def sendOp (sid : SockId) (payload : Bytes) (s : State) : State × Result :=
  match Store.find sid s.sock with
  | none => (s, .err .noSuchSocket)
  | some k =>
    if k.closed then (s, .err .socketClosed)
    else if !s.ifOpen then (s, .err .interfaceClosed)
    else
      match k.space with
      | .proto => sendProto k.key payload s
      | .beport => sendBe k.key payload s
      | .relport => sendRel s

/-- `pop` of a socket's queue: its tail stays (R44, R127). -/
def popQueue (sid : SockId) (rest : List Bytes) (s : State) : State :=
  { s with sock := Store.upd sid (Socket.withQueue rest) s.sock }

/-- `RECV(sid)` (R127): it answers at once. -/
def recvOp (sid : SockId) (s : State) : State × Result :=
  match Store.find sid s.sock with
  | none => (s, .err .noSuchSocket)
  | some k =>
    if k.closed then (s, .err .socketClosed)
    else
      match k.queue with
      | [] => (s, .err .receiveQueueEmpty)
      | payload :: rest => (popQueue sid rest s, .okBytes payload)

/-- `delete S.proto[PROTO_BE_DATA] if it is BE_SWITCH` (R128). -/
def dropSwitch (s : State) : State :=
  if attached s then { s with proto := Store.del protoBeDataNum.toNat s.proto } else s

/-- What `IF_CLOSE` does to an open interface (R128); the sockets are closed in the order of their ids,
"order does not matter" (log entry 19). -/
def shutDown (s : State) : State :=
  emitBsClose
    { dropSwitch (closeAll (Store.keys s.sock) s) with
      beSimplex := false, mode := .waitSync, buf := [], ifOpen := false }

/-- `IF_CLOSE` (R128). -/
def ifCloseOp (s : State) : State := if s.ifOpen then shutDown s else s

/-- BIND (R120). -/
def execBind (space : Space) (key : U16) (s : State) : Out := reply (bindOp space key s)

/-- CLOSE (R121). -/
def execClose (sid : SockId) (s : State) : Out := reply (closeOp sid s)

/-- TX_DATAGRAM (R124). -/
def execTxDatagram (proto : U16) (payload : Bytes) (s : State) : Out :=
  .next (txDatagramOp proto payload s)

/-- SEND (R125). The three rows of `SEND` are one command, selected by the socket's space (R75; log
entry 9). -/
def execSend (sid : SockId) (payload : Bytes) (s : State) : Out := reply (sendOp sid payload s)

/-- BE_SEND (R141): the command `SEND` as the row names it for a best-effort port socket. -/
def execBeSend (sid : SockId) (payload : Bytes) (s : State) : Out := reply (sendOp sid payload s)

/-- REL_SEND (R147): the command `SEND` as the row names it for a reliable port socket. -/
def execRelSend (sid : SockId) (payload : Bytes) (s : State) : Out := reply (sendOp sid payload s)

/-- RECV (R127): the result goes out on `RCV`. -/
def execRecv (sid : SockId) (s : State) : Out :=
  .next (answerRcv (recvOp sid s).2 (recvOp sid s).1)

/-- IF_CLOSE (R128). -/
def execIfClose (s : State) : Out := reply (ifCloseOp s, .ok)

/-- SET_MTU (R129): any value, whatever `S.if_open` is. -/
def execSetMtu (v : U16) (s : State) : Out := reply ({ s with linkMtu := v }, .ok)

/-- SET_CAP (R130). -/
def execSetCap (en : Bool) (s : State) : Out := reply ({ s with capEn := en }, .ok)

/-- RESET (R171). -/
def execReset (s : State) : Out := reply (resetOp params s, .ok)

end Sys2Proof.Machine
end

