-- ==== Sys2Proof/Machine/Receive.lean ====
section
/-! DEFINITION. The FrameSplitter and the receive chain: `RX_BYTE` with its seven cases, `RX_FRAME`,
`RX_CHUNK` (42_frame_codec.md R104 to R113). -/

namespace Sys2Proof.Machine

/-- `RX_FRAME(f)` (R111): decode, capture, unencapsulate, dispatch; a fault ends it at the point where it
is raised (R155). -/
def rxFrameOp (P : Params) (f : Bytes) (s : State) : State :=
  match decodeFrame f with
  | .error e => raise e none s
  | .ok dg =>
    match unencap dg with
    | .error _ => raise .datagramTooShort (some dg.length) (capture dirReceived dg s)
    | .ok (proto, payload) => dispatchOp P proto payload (capture dirReceived dg s)

/-- Case ignored (R113): nothing changes. -/
def rxIgnoredCase (s : State) : State := s

/-- Case `SYNC_SKIP` (R105): the byte is discarded. -/
def syncSkipCase (s : State) : State := s

/-- Case `SYNC_FLAG` (R106). -/
def syncFlagCase (s : State) : State := { s with mode := .collect }

/-- Case `COLLECT_DATA` (R107). -/
def collectDataCase (b : Byte) (s : State) : State := bufAppend b s

/-- Case `COLLECT_OVERFLOW` (R108): the buffer is cleared, the mode goes back, then the fault. -/
def collectOverflowCase (s : State) : State :=
  raise .frameTooLong none { s with buf := [], mode := .waitSync }

/-- Case `FLAG_EMPTY` (R109): nothing changes. -/
def flagEmptyCase (s : State) : State := s

/-- Case `FLAG_FRAME` (R110): the contents are taken, the buffer is empty before `RX_FRAME` runs, and the
mode stays `COLLECT`. -/
def flagFrameCase (P : Params) (s : State) : State := rxFrameOp P s.buf { s with buf := [] }

/-- `RX_BYTE(b)` (R104): one step of the FrameSplitter with everything a completed frame causes. -/
def rxByteOp (P : Params) (b : Byte) (s : State) : State :=
  match rxCase P b s with
  | .ignored => rxIgnoredCase s
  | .syncSkip => syncSkipCase s
  | .syncFlag => syncFlagCase s
  | .collectData => collectDataCase b s
  | .collectOverflow => collectOverflowCase s
  | .flagEmpty => flagEmptyCase s
  | .flagFrame => flagFrameCase P s

/-- The row of case `c` run on byte `b`: where the state selects `c` (R71), the case's own effect; where it
selects another, the arriving byte is handled by the case it does select (log entry 8). -/
def rxRow (c : RxCase) (b : Byte) (own : State) (s : State) : Out :=
  if rxCase params b s = c then .next own else .next (rxByteOp params b s)

/-- RX_BYTE (R104). -/
def execRxByte (b : Byte) (s : State) : Out := .next (rxByteOp params b s)

/-- RX_IGNORED (R113). -/
def execRxIgnored (b : Byte) (s : State) : Out := rxRow .ignored b (rxIgnoredCase s) s

/-- SYNC_FLAG (R106). -/
def execSyncFlag (s : State) : Out := rxRow .syncFlag flag (syncFlagCase s) s

/-- SYNC_SKIP (R105). -/
def execSyncSkip (b : Byte) (s : State) : Out := rxRow .syncSkip b (syncSkipCase s) s

/-- FLAG_EMPTY (R109). -/
def execFlagEmpty (s : State) : Out := rxRow .flagEmpty flag (flagEmptyCase s) s

/-- FLAG_FRAME (R110). -/
def execFlagFrame (s : State) : Out := rxRow .flagFrame flag (flagFrameCase params s) s

/-- COLLECT_DATA (R107). -/
def execCollectData (b : Byte) (s : State) : Out := rxRow .collectData b (collectDataCase b s) s

/-- COLLECT_OVERFLOW (R108). -/
def execCollectOverflow (b : Byte) (s : State) : Out := rxRow .collectOverflow b (collectOverflowCase s) s

/-- RX_FRAME (R111). -/
def execRxFrame (f : Bytes) (s : State) : Out := .next (rxFrameOp params f s)

/-- RX_CHUNK (R112): one return of the byte stream's `read()`. The bytes are offered on `RXB` behind those
already waiting, and the receive agent gets one turn for each behind the turns already scheduled: each is
one atomic `RX_BYTE` step, and "commands of other agents may come between them" as the schedule says (log
entry 13). It has no result. -/
def execRxChunk (bs : Bytes) (s : State) : Out :=
  .next { s with rxbIn := s.rxbIn ++ bs, sched := s.sched ++ List.replicate bs.length .rxb }

end Sys2Proof.Machine
end

