-- ==== Sys2Proof/Machine/Classes.lean ====
section
/-! DEFINITION. The decode classes of the opcode table run by themselves (30_encoding.md R74; log entry 11):
a unit whose field is in the class is given to the operation that reads the field. No class changes what
that operation does: "routing is by the registry", the port class "decides nothing in the block". -/

namespace Sys2Proof.Machine

/-- PROTO_LCP (R46, R74): a received datagram with this protocol number is dispatched (R122). -/
def execProtoLcp (payload : Bytes) (s : State) : Out := .next (dispatchOp params protoLcpNum payload s)

/-- PROTO_BE_NCP (R46, R74). -/
def execProtoBeNcp (payload : Bytes) (s : State) : Out :=
  .next (dispatchOp params protoBeNcpNum payload s)

/-- PROTO_BE_DATA (R46, R74): to the best-effort switch where it is attached. -/
def execProtoBeData (payload : Bytes) (s : State) : Out :=
  .next (dispatchOp params protoBeDataNum payload s)

/-- PROTO_REL_NCP (R46, R74). -/
def execProtoRelNcp (payload : Bytes) (s : State) : Out :=
  .next (dispatchOp params protoRelNcpNum payload s)

/-- PROTO_REL_CMD (R46, R74). -/
def execProtoRelCmd (payload : Bytes) (s : State) : Out :=
  .next (dispatchOp params protoRelCmdNum payload s)

/-- PROTO_REL_RSP (R46, R74). -/
def execProtoRelRsp (payload : Bytes) (s : State) : Out :=
  .next (dispatchOp params protoRelRspNum payload s)

/-- PCMP_PORT (R47, R74): "the block treats it as any port", so a payload for it is delivered (R140). -/
def execPcmpPort (space : PortSpace) (payload : Bytes) (s : State) : Out :=
  .next (portDeliverOp params space pcmpPortNum payload s)

/-- `REL_PARSE` of byte 0 and the bytes after it, answered as `REL_PARSE` answers (R145). -/
def relClass (b0 : Byte) (rest : Bytes) (s : State) : Out :=
  replyPure (relResult (relParse params (b0 :: rest))) s

/-- REL_INFO (R65, R145). -/
def execRelInfo (ns : Seq7) (rest : Bytes) (s : State) : Out := relClass (infoByte0 ns) rest s

/-- REL_SUP_RR (R66, R145). -/
def execRelSupRr (reserved : BitVec 4) (rest : Bytes) (s : State) : Out :=
  relClass (supByte0 reserved 0) rest s

/-- REL_SUP_RNR (R66, R145). -/
def execRelSupRnr (reserved : BitVec 4) (rest : Bytes) (s : State) : Out :=
  relClass (supByte0 reserved 1) rest s

/-- REL_SUP_REJ (R66, R145). -/
def execRelSupRej (reserved : BitVec 4) (rest : Bytes) (s : State) : Out :=
  relClass (supByte0 reserved 2) rest s

/-- REL_SUP_KIND_UNDEFINED (R69, R145). -/
def execRelSupKindUndefined (reserved : BitVec 4) (rest : Bytes) (s : State) : Out :=
  relClass (supByte0 reserved 3) rest s

/-- REL_UNDEFINED (R69, R145). -/
def execRelUndefined (high : BitVec 6) (rest : Bytes) (s : State) : Out :=
  relClass (undefByte0 high) rest s

/-- `COBS_DEC` of a code byte and the bytes after it, answered as `COBS_DEC` answers (R92). -/
def cobsClass (code : Byte) (rest : Bytes) (s : State) : Out :=
  replyPure (cobsResult (cobsDec (code :: rest))) s

/-- COBS_CODE_ILLEGAL (R62, R92): a string whose first code byte is 0x00. -/
def execCobsCodeIllegal (rest : Bytes) (s : State) : Out := cobsClass 0x00 rest s

/-- COBS_CODE_FULL (R62, R92): a string whose first code byte is 0xFF. -/
def execCobsCodeFull (rest : Bytes) (s : State) : Out := cobsClass 0xFF rest s

/-- COBS_CODE_SHORT (R62, R92): a string whose first code byte is 0x01 to 0xFE. -/
def execCobsCodeShort (code : Byte) (rest : Bytes) (s : State) : Out := cobsClass code rest s

end Sys2Proof.Machine
end

