-- ==== Sys2Proof/Machine/Dispatch.lean ====
section
/-! DEFINITION. The one dispatch: every constructor of `Instr` to its meaning, in the order of the opcode
table. -/

namespace Sys2Proof.Machine

def exec (i : Instr) (s : State) : Host.Outcome State Fault Refusal :=
  match i with
  | .crc32 d => Sys2Proof.Machine.execCrc32 d s
  | .fcsAppend p => Sys2Proof.Machine.execFcsAppend p s
  | .fcsCheck d => Sys2Proof.Machine.execFcsCheck d s
  | .cobsEnc d => Sys2Proof.Machine.execCobsEnc d s
  | .cobsDec c => Sys2Proof.Machine.execCobsDec c s
  | .swapOut c => Sys2Proof.Machine.execSwapOut c s
  | .swapIn f => Sys2Proof.Machine.execSwapIn f s
  | .encodeFrame p => Sys2Proof.Machine.execEncodeFrame p s
  | .decodeFrame f => Sys2Proof.Machine.execDecodeFrame f s
  | .encap proto payload => Sys2Proof.Machine.execEncap proto payload s
  | .unencap d => Sys2Proof.Machine.execUnencap d s
  | .beBuild port payload => Sys2Proof.Machine.execBeBuild port payload s
  | .beParse u => Sys2Proof.Machine.execBeParse u s
  | .relBuildInfo ns nr poll port payload => Sys2Proof.Machine.execRelBuildInfo ns nr poll port payload s
  | .relBuildSup kind nr pf => Sys2Proof.Machine.execRelBuildSup kind nr pf s
  | .relParse u => Sys2Proof.Machine.execRelParse u s
  | .rxByte b => Sys2Proof.Machine.execRxByte b s
  | .rxIgnored b => Sys2Proof.Machine.execRxIgnored b s
  | .syncFlag => Sys2Proof.Machine.execSyncFlag s
  | .syncSkip b => Sys2Proof.Machine.execSyncSkip b s
  | .flagEmpty => Sys2Proof.Machine.execFlagEmpty s
  | .flagFrame => Sys2Proof.Machine.execFlagFrame s
  | .collectData b => Sys2Proof.Machine.execCollectData b s
  | .collectOverflow b => Sys2Proof.Machine.execCollectOverflow b s
  | .rxFrame f => Sys2Proof.Machine.execRxFrame f s
  | .rxChunk bs => Sys2Proof.Machine.execRxChunk bs s
  | .bind space key => Sys2Proof.Machine.execBind space key s
  | .close sid => Sys2Proof.Machine.execClose sid s
  | .dispatch proto payload => Sys2Proof.Machine.execDispatch proto payload s
  | .enqueue sid payload => Sys2Proof.Machine.execEnqueue sid payload s
  | .txDatagram proto payload => Sys2Proof.Machine.execTxDatagram proto payload s
  | .send sid payload => Sys2Proof.Machine.execSend sid payload s
  | .beSend sid payload => Sys2Proof.Machine.execBeSend sid payload s
  | .relSend sid payload => Sys2Proof.Machine.execRelSend sid payload s
  | .recv sid => Sys2Proof.Machine.execRecv sid s
  | .ifClose => Sys2Proof.Machine.execIfClose s
  | .setMtu v => Sys2Proof.Machine.execSetMtu v s
  | .setCap en => Sys2Proof.Machine.execSetCap en s
  | .tpAttach simplex => Sys2Proof.Machine.execTpAttach simplex s
  | .tpDetach => Sys2Proof.Machine.execTpDetach s
  | .beDemux u => Sys2Proof.Machine.execBeDemux u s
  | .portDeliver space port payload => Sys2Proof.Machine.execPortDeliver space port payload s
  | .portForceClose space port => Sys2Proof.Machine.execPortForceClose space port s
  | .relDeliver port payload => Sys2Proof.Machine.execRelDeliver port payload s
  | .reset => Sys2Proof.Machine.execReset s
  | .protoLcp payload => Sys2Proof.Machine.execProtoLcp payload s
  | .protoBeNcp payload => Sys2Proof.Machine.execProtoBeNcp payload s
  | .protoBeData payload => Sys2Proof.Machine.execProtoBeData payload s
  | .protoRelNcp payload => Sys2Proof.Machine.execProtoRelNcp payload s
  | .protoRelCmd payload => Sys2Proof.Machine.execProtoRelCmd payload s
  | .protoRelRsp payload => Sys2Proof.Machine.execProtoRelRsp payload s
  | .pcmpPort space payload => Sys2Proof.Machine.execPcmpPort space payload s
  | .relInfo ns rest => Sys2Proof.Machine.execRelInfo ns rest s
  | .relSupRr reserved rest => Sys2Proof.Machine.execRelSupRr reserved rest s
  | .relSupRnr reserved rest => Sys2Proof.Machine.execRelSupRnr reserved rest s
  | .relSupRej reserved rest => Sys2Proof.Machine.execRelSupRej reserved rest s
  | .relSupKindUndefined reserved rest => Sys2Proof.Machine.execRelSupKindUndefined reserved rest s
  | .relUndefined high rest => Sys2Proof.Machine.execRelUndefined high rest s
  | .cobsCodeIllegal rest => Sys2Proof.Machine.execCobsCodeIllegal rest s
  | .cobsCodeFull rest => Sys2Proof.Machine.execCobsCodeFull rest s
  | .cobsCodeShort code rest => Sys2Proof.Machine.execCobsCodeShort code rest s

end Sys2Proof.Machine
end

