-- ==== Sys2Proof/Machine/Fetch.lean ====
section
/-! DEFINITION. Taking the next event (10_state.md R30, R34; 20_memory.md R51): the block fetches at no
program counter; the schedule's next turn says which lane the event comes from (log entries 4, 5, 6). -/

namespace Sys2Proof.Machine

/-- The state with the schedule's first turn used up. -/
def nextTurn (s : State) : State := { s with sched := s.sched.drop 1 }

/-- The state after the receive agent has taken the next byte of `RXB` (R45). -/
def takeRxb (s : State) : State := { nextTurn s with rxbIn := s.rxbIn.drop 1 }

/-- The state after the next record has been taken from `CMD`. -/
def takeCmd (s : State) : State := { nextTurn s with cmdIn := s.cmdIn.drop 1 }

/-- The state after the next bench record has been taken (log entry 6). -/
def takeBench (s : State) : State := { nextTurn s with benchIn := s.benchIn.drop 1 }

/-- What the next step has before it. -/
inductive Event where
  /-- Nothing: no turn is left, or the turn's lane is empty ("an empty read is zero `RX_BYTE` steps", R185;
  R164). -/
  | idle
  /-- A byte on `RXB`. -/
  | byte (b : Byte)
  /-- A record on `CMD`. -/
  | command (r : Bytes)
  /-- A bench record. -/
  | bench (r : Bytes)
  deriving DecidableEq, Repr

/-- The next event of the schedule. -/
def fetch (s : State) : Event :=
  match s.sched with
  | [] => .idle
  | .rxb :: _ => match s.rxbIn with
    | [] => .idle
    | b :: _ => .byte b
  | .cmd :: _ => match s.cmdIn with
    | [] => .idle
    | r :: _ => .command r
  | .bench :: _ => match s.benchIn with
    | [] => .idle
    | r :: _ => .bench r

/-- Put a bench record and its turn in front of everything that waits. -/
def offerBench (r : Bytes) (s : State) : State :=
  { s with benchIn := r :: s.benchIn, sched := .bench :: s.sched }

end Sys2Proof.Machine
end

