-- ==== Sys2Proof/Machine/Step.lean ====
section
/-! DEFINITION. One step of the machine: the schedule's next event is taken and run; every step is atomic
(20_memory.md R51). With nothing to take, the block "does nothing" (60_exceptions.md R164). -/

namespace Sys2Proof.Machine

/-- One atomic step. -/
def step (s : State) : Host.Outcome State Fault Refusal :=
  match fetch s with
  | .idle => .next (nextTurn s)
  | .byte b => exec (.rxByte b) (takeRxb s)
  | .command r =>
    match decode r with
    | .error e => .refused (.undecodable e)
    | .ok i => if i.issuable then exec i (takeCmd s) else .refused .notIssuable
  | .bench r =>
    match decode r with
    | .error e => .refused (.undecodable e)
    | .ok i => exec i (takeBench s)

/-- The state with the record of an opcode-table word put where the next step takes its event: a bench
record and its turn (log entries 5, 6, 12). A word that is no row's is an empty record, which the decoder
rejects. -/
def State.withFetchWord (s : State) (nbits w : Nat) : State :=
  offerBench ((tableRecord nbits w).getD []) s

end Sys2Proof.Machine
end

