-- ==== Sys2Proof/Safety.lean ====
section
/-! DEFINITION. What claims speak of: the nine invariants of 10_state.md R32, a run of received bytes, and
the terms of the claims. -/

namespace Sys2Proof.Machine

/-- R32 item 1, and R23: the collect buffer. -/
def BufInv (P : Params) (s : State) : Prop :=
  s.buf.length ≤ P.maxFrameLen ∧ flag ∉ s.buf ∧ (s.mode = .waitSync → s.buf = [])

/-- The registry entry of a space and key holds exactly this socket id (R32 items 2 and 3). -/
def entryIs (space : Space) (key : U16) (sid : SockId) (s : State) : Prop :=
  match space with
  | .proto => Store.find key.toNat s.proto = some (.raw sid)
  | .beport => Store.find key.toNat s.beport = some sid
  | .relport => Store.find key.toNat s.relport = some sid

/-- R32 item 2: what a registry entry points at is an open socket of that space and key. -/
def EntriesOpen (s : State) : Prop :=
  ∀ (space : Space) (key : U16) (sid : SockId), entryIs space key sid s →
    ∃ k, Store.find sid s.sock = some k ∧ k.space = space ∧ k.key = key ∧ k.closed = false

/-- R32 item 3: every open socket is the value of exactly one registry entry, the one its space and key
name. -/
def OpenEntered (s : State) : Prop :=
  ∀ (sid : SockId) (k : Socket), Store.find sid s.sock = some k → k.closed = false →
    entryIs k.space k.key sid s ∧
    ∀ (space : Space) (key : U16), entryIs space key sid s → space = k.space ∧ key = k.key

/-- R32 item 4: `BE_SWITCH` stands only at 0x3A29. -/
def SwitchPlace (s : State) : Prop :=
  ∀ n, Store.find n s.proto = some .beSwitch → n = protoBeDataNum.toNat

/-- R32 item 5: without the switch no best-effort port is bound. -/
def PortsNeedSwitch (s : State) : Prop := attached s = false → s.beport = []

/-- R32 item 6: ids in the store are below `S.next_sid`. -/
def SidsBelow (s : State) : Prop := ∀ sid, Store.has sid s.sock = true → sid < s.nextSid

/-- R32 item 7: a closed interface has nothing bound, nothing open and an idle splitter. -/
def ClosedQuiet (s : State) : Prop :=
  s.ifOpen = false →
    s.proto = [] ∧ s.beport = [] ∧ s.relport = [] ∧ s.mode = .waitSync ∧ s.buf = [] ∧
    ∀ sid k, Store.find sid s.sock = some k → k.closed = true

/-- R32 item 8: a closed socket has an empty queue. -/
def ClosedEmpty (s : State) : Prop :=
  ∀ sid k, Store.find sid s.sock = some k → k.closed = true → k.queue = []

/-- R32 item 9: a finite `QUEUE_DEPTH` bounds every queue. -/
def QueuesBounded (P : Params) (s : State) : Prop :=
  ∀ depth, P.queueDepth = some depth →
    ∀ sid k, Store.find sid s.sock = some k → k.queue.length ≤ depth

/-- The invariants of R32, over the stores in canonical form. -/
structure Inv (P : Params) (s : State) : Prop where
  wf : Memory.wf s = true
  buf : BufInv P s
  entriesOpen : EntriesOpen s
  openEntered : OpenEntered s
  switchPlace : SwitchPlace s
  portsNeedSwitch : PortsNeedSwitch s
  sidsBelow : SidsBelow s
  closedQuiet : ClosedQuiet s
  closedEmpty : ClosedEmpty s
  queuesBounded : QueuesBounded P s

/-- The bytes `bs` as successive `RX_BYTE` steps (R112). -/
def rxRun (P : Params) (bs : Bytes) (s : State) : State := bs.foldl (fun s b => rxByteOp P b s) s

/-! ### Terms of the claims

Written from the spec's own words and apart from the model's operations, so that a claim compares two
texts. Each state term is a whole record update: what it does not name is unchanged. -/

/-- Only one result is added on `CMD`. -/
def replied (r : Result) (s : State) : State := { s with cmdOut := s.cmdOut ++ [r] }

/-- Only one event is added on `DIAG` (R151, R155). -/
def reported (code : Byte) (info : Option Nat) (s : State) : State :=
  { s with diag := s.diag ++ [{ code := code, info := info }] }

/-- Only one payload is added, at the tail of one socket's queue (R44). -/
def delivered (sid : SockId) (payload : Bytes) (s : State) : State :=
  { s with sock := Store.upd sid (fun k => { k with queue := k.queue ++ [payload] }) s.sock }

/-- Only one record is added on `CAP`, and only with the tap on (R126). -/
def captured (dir : Byte) (dg : Bytes) (s : State) : State :=
  { s with cap := if s.capEn then s.cap ++ [dir :: dg] else s.cap }

/-- A 16-bit number from its two big-endian bytes, in arithmetic (R9, R48). -/
def num16 (hi lo : Byte) : Nat := hi.toNat * 256 + lo.toNat

/-- The two big-endian bytes of a 16-bit number, in arithmetic (R9, R48). -/
def bytes16 (n : Nat) : Bytes := [BitVec.ofNat 8 (n / 256), BitVec.ofNat 8 n]

/-- One bit of the CRC register in arithmetic on natural numbers (R80). -/
def crcNatBit (r : Nat) : Nat := if r % 2 = 1 then (r / 2) ^^^ 0xEDB88320 else r / 2

/-- One byte of the CRC register: eight times `crcNatBit` (R80). -/
def crcNatByte (r : Nat) (b : Byte) : Nat := crcNatBit^[8] (r ^^^ b.toNat)

/-- `CRC32(d)` in arithmetic on natural numbers, as the pseudocode of R80 reads. -/
def crcNat (d : Bytes) : Nat := d.foldl crcNatByte 0xFFFFFFFF ^^^ 0xFFFFFFFF

/-- Bit `i` of a string in the order the CRC takes them: bytes in order, each least significant bit first
(R80). -/
def streamBit (d : Bytes) (i : Nat) : Bool := (d.getD (i / 8) 0).getLsbD (i % 8)

/-- The four FCS bytes of `p`, least significant first, in arithmetic (R82). -/
def fcsBytes (p : Bytes) : Bytes :=
  [BitVec.ofNat 8 (crcNat p), BitVec.ofNat 8 (crcNat p / 2 ^ 8), BitVec.ofNat 8 (crcNat p / 2 ^ 16),
    BitVec.ofNat 8 (crcNat p / 2 ^ 24)]

/-- `s_0 ++ [00] ++ s_1 ++ ... ++ [00] ++ s_k` (R90). -/
def joinZeros (ss : List Bytes) : Bytes := List.intercalate [0] ss

/-- A way to cut a string at its zero bytes: at least one segment, none with a zero byte (R90). -/
def ZeroFree (ss : List Bytes) : Prop := ss ≠ [] ∧ ∀ x ∈ ss, (0 : Byte) ∉ x

/-- `seg(s, last)` in closed form (R90): the full blocks of 254, then the final group unless the segment is
the last, not empty and of a length that is a multiple of 254. -/
def specSeg (x : Bytes) (last : Bool) : Bytes :=
  (List.range (x.length / 254)).flatMap (fun i => 0xFF :: (x.drop (254 * i)).take 254) ++
    (if last = true ∧ x ≠ [] ∧ x.length % 254 = 0 then []
     else BitVec.ofNat 8 (x.length % 254 + 1) :: x.drop (254 * (x.length / 254)))

/-- The concatenation of `seg(s_j, j = k)` (R90). -/
def specSegs : List Bytes → Bytes
  | [] => []
  | [x] => specSeg x true
  | x :: y :: ss => specSeg x false ++ specSegs (y :: ss)

/-- The loop of `COBS_DEC` with its index and accumulator, as the pseudocode of R92 reads; `fuel` bounds
the turns. -/
def cobsLoop (c : Bytes) : Nat → Nat → Bytes → Result
  | 0, _, _ => .err .malformed
  | fuel + 1, i, out =>
    if c.getD i 0 = 0 then .err .malformed
    else if i + 1 + ((c.getD i 0).toNat - 1) > c.length then .err .malformed
    else if (0 : Byte) ∈ (c.drop (i + 1)).take ((c.getD i 0).toNat - 1) then .err .malformed
    else if i + 1 + ((c.getD i 0).toNat - 1) = c.length then
      .okBytes (out ++ (c.drop (i + 1)).take ((c.getD i 0).toNat - 1))
    else
      cobsLoop c fuel (i + 1 + ((c.getD i 0).toNat - 1))
        (out ++ (c.drop (i + 1)).take ((c.getD i 0).toNat - 1)
          ++ (if c.getD i 0 ≠ 0xFF then [0] else []))

/-- `d` ends in a segment that is not empty and whose length is a multiple of 254, so that `COBS_ENC(d)`
ends with a full 0xFF group (R93). -/
def EndsFull (d : Bytes) : Prop :=
  ∃ ss x, ZeroFree (ss ++ [x]) ∧ d = joinZeros (ss ++ [x]) ∧ x ≠ [] ∧ x.length % 254 = 0

/-- The bytes between the two `FLAG` bytes of a wire frame (C1 of 90_conflicts.md). -/
def contents (w : Bytes) : Bytes := (w.drop 1).take (w.length - 2)

end Sys2Proof.Machine
end

