-- ==== Sys2Proof/Certificates/Slice0/Obligations.lean ====
section
/-! DEFINITION. The statements for the provers. Each says in its docstring which rule of spec/ it
formalises, or that it is about a choice of the model and which log entry holds it. A next state is given as
a whole record, so every statement of a result is also its own frame: what the record does not name is
unchanged. -/

open Sys2Proof Sys2Proof.Machine

/-! ### Encoding and stepping -/

/-- The model's record format (log entry 3): every well-formed instruction is read back from its record. -/
def Obligations.DecodeReadsBackEveryEncoding : Prop :=
  ∀ i : Instr, i.wf = true → decode (encode i) = .ok i

/-- The model's record format (log entry 3): a record that is accepted is the record of the instruction it
stands for, which is well formed; no two records mean the same. -/
def Obligations.AcceptedRecordsAreCanonical : Prop :=
  ∀ (r : Bytes) (i : Instr), decode r = .ok i → i.wf = true ∧ encode i = r

/-- A few words and records with the instruction each stands for (R74, R75; log entries 3 and 12). -/
def Obligations.SampleWordsDecode : Prop :=
  decodeTableWord 16 0xC021 = some (.protoLcp []) ∧
  decodeTableWord 16 0x3A35 = some (.protoRelRsp []) ∧
  decodeTableWord 16 0x0001 = some (.pcmpPort .beport []) ∧
  decodeTableWord 8 0x55 = some .syncFlag ∧
  decodeTableWord 8 0x09 = some (.relSupRej 0 [0]) ∧
  decodeTableWord 8 0xFF = some (.cobsCodeFull []) ∧
  decode [27, 0x00, 0xC0, 0x21] = .ok (.bind .proto 0xC021) ∧
  decode [14, 0x05, 0x03, 0x01, 0x12, 0x34, 0xAA, 0xBB] =
    .ok (.relBuildInfo 5 3 1 0x1234 [0xAA, 0xBB]) ∧
  decode [43, 0x00, 0x00, 0x2A] = .error .badSpace

/-- R67, and R74, an inference of the spec ('derived: from rules R62, R65, R66'): every byte 0 of a reliable
packet is in exactly one of the six classes, the class's row keeps every bit of it, and `REL_PARSE` takes as
supervisory exactly the bytes of the classes with mask 0xFF when `REL_RESERVED_STRICT` holds and with mask
0x0F when it does not. That the row's record ends in the byte and the rest of the packet is about the model's
own record format (DESIGN CHOICE, log entry 3). -/
def Obligations.ReliableByte0ClassesPartition : Prop :=
  (∀ (b : Byte) (rest : Bytes),
    (relByte0Instr b rest).wf = true ∧ (encode (relByte0Instr b rest)).tail = b :: rest ∧
    ([((0x01 : Byte), (0x00 : Byte)), (0x0F, 0x01), (0x0F, 0x05), (0x0F, 0x09), (0x0F, 0x0D),
      (0x03, 0x03)].filter (fun c => b &&& c.1 == c.2)).length = 1) ∧
  ∀ (P : Params) (b b1 : Byte) (rest : Bytes),
    ((∃ k nr pf, relParse P (b :: b1 :: rest) = .ok (.sup k nr pf)) ↔
      if P.relReservedStrict then b ∈ [(0x01 : Byte), 0x05, 0x09]
      else b &&& 0x0F ∈ [(0x01 : Byte), 0x05, 0x09])

/-- R51: a step is one atomic operation: the byte the receive agent's turn takes from `RXB`, or the command
an external agent's turn takes from `CMD`, is run whole. What may stand on `CMD` is the model's record
format (log entries 3, 4, 6): a record the decoder rejects, or one of a row no agent can issue (R70), is
refused. A table word put in place runs as the next step (log entry 12). -/
def Obligations.StepRunsTheDecodedInstruction : Prop :=
  (∀ (s : State) (b : Byte) (bs : Bytes) (ts : List Turn), s.sched = .rxb :: ts → s.rxbIn = b :: bs →
    step s = exec (.rxByte b) { s with sched := ts, rxbIn := bs }) ∧
  (∀ (s : State) (r : Bytes) (rs : List Bytes) (ts : List Turn) (i : Instr),
    s.sched = .cmd :: ts → s.cmdIn = r :: rs → decode r = .ok i → i.issuable = true →
    step s = exec i { s with sched := ts, cmdIn := rs }) ∧
  (∀ (s : State) (r : Bytes) (rs : List Bytes) (ts : List Turn) (i : Instr),
    s.sched = .bench :: ts → s.benchIn = r :: rs → decode r = .ok i →
    step s = exec i { s with sched := ts, benchIn := rs }) ∧
  (∀ (s : State) (r : Bytes) (rs : List Bytes) (ts : List Turn) (i : Instr),
    s.sched = .cmd :: ts → s.cmdIn = r :: rs → decode r = .ok i → i.issuable = false →
    step s = .refused .notIssuable) ∧
  (∀ (s : State) (r : Bytes) (rs : List Bytes) (ts : List Turn) (e : DecodeErr),
    s.sched = .cmd :: ts → s.cmdIn = r :: rs → decode r = .error e →
    step s = .refused (.undecodable e)) ∧
  ∀ (s : State) (nbits w : Nat) (i : Instr), decodeTableWord nbits w = some i →
    step (s.withFetchWord nbits w) = exec i s

/-- R164: "When no byte arrives and no command is issued, the block does nothing and `S` does not change". A
turn whose lane is empty is used up and nothing else happens (log entry 17). -/
def Obligations.IdleStepChangesNothing : Prop :=
  (∀ s : State, s.sched = [] → step s = .next s) ∧
  (∀ (s : State) (ts : List Turn), s.sched = .rxb :: ts → s.rxbIn = [] →
    step s = .next { s with sched := ts }) ∧
  (∀ (s : State) (ts : List Turn), s.sched = .cmd :: ts → s.cmdIn = [] →
    step s = .next { s with sched := ts }) ∧
  ∀ (s : State) (ts : List Turn), s.sched = .bench :: ts → s.benchIn = [] →
    step s = .next { s with sched := ts }

/-! ### Reset and the invariants -/

/-- R33: the state after reset, every element of the rule's table. (The model's own lanes, schedule and
answer histories are not in it.) -/
def Obligations.PowerOnResetValues : Prop :=
  State.reset.mode = .waitSync ∧ State.reset.buf = [] ∧ State.reset.linkMtu = params.linkMtuReset ∧
  State.reset.capEn = false ∧ State.reset.beSimplex = false ∧ State.reset.ifOpen = true ∧
  State.reset.proto = [] ∧ State.reset.beport = [] ∧ State.reset.relport = [] ∧
  State.reset.sock = [] ∧ State.reset.nextSid = 0 ∧ State.reset.txb = [] ∧ State.reset.cap = [] ∧
  State.reset.diag = [] ∧ State.reset.bsClosed = 0

/-- R32, an inference of the spec ('Invariants that hold after reset and after every step', marked derived):
the nine invariants hold at power-on reset. -/
def Obligations.ResetMeetsTheNineInvariants : Prop := Inv params State.reset

/-- R32, an inference of the spec, marked derived: "Invariants that hold after reset and after every step".
That the stores keep their canonical form is about the model's own data (log entry 18). -/
def Obligations.EveryStepKeepsTheNineInvariants : Prop :=
  Inv params State.reset ∧ ∀ s t : State, Inv params s → step s = .next t → Inv params t

/-- R171: `RESET`, with its frame: the output histories stay. That the model's lanes, schedule and answer
histories stay as well is the model's choice (DESIGN CHOICE, log entry 14), so the basis is 'derived'. It
"is the only step that makes `S.if_open` true again and the only one that removes sockets from the store". -/
def Obligations.ResetAloneRestoresTheResetState : Prop :=
  (∀ s : State, exec .reset s = .next
    { s with
      mode := .waitSync, buf := [], linkMtu := params.linkMtuReset, capEn := false,
      beSimplex := false, ifOpen := true, proto := [], beport := [], relport := [], sock := [],
      nextSid := 0, cmdOut := s.cmdOut ++ [.ok] }) ∧
  ∀ (i : Instr) (s t : State), exec i s = .next t → i ≠ .reset →
    (s.ifOpen = false → t.ifOpen = false) ∧
    ∀ sid, Store.find sid s.sock ≠ none → Store.find sid t.sock ≠ none

/-! ### CRC and FCS -/

/-- R80: `CRC32` answers what the pseudocode computes, read in arithmetic on natural numbers. -/
def Obligations.Crc32AnswersTheCrcOfTheRule : Prop :=
  ∀ (d : Bytes) (s : State),
    exec (.crc32 d) s = .next (replied (.word (BitVec.ofNat 32 (crcNat d))) s) ∧
    crcNat d < 2 ^ 32

/-- R82, R83: `FCS_APPEND` answers the string and its CRC, least significant byte first; `FCS_CHECK` accepts
exactly the strings of at least four bytes with the residue. The last clause, that the length test changes no
result, is R83's own inference, marked derived. -/
def Obligations.FcsIsAppendedLittleEndianAndChecked : Prop :=
  (∀ (p : Bytes) (s : State),
    exec (.fcsAppend p) s = .next (replied (.bytes (p ++ fcsBytes p)) s)) ∧
  (∀ (d : Bytes) (s : State), exec (.fcsCheck d) s = .next (replied
    (if d.length < 4 then .err (.cause .corruptFrame)
     else if crcNat d ≠ 0x2144DF1C then .err (.cause .corruptFrame)
     else .okBytes (d.take (d.length - 4))) s)) ∧
  ∀ d : Bytes, d.length < 4 → crcNat d ≠ 0x2144DF1C

/-- R84, the residue law, both directions; the spec marks it as general knowledge (log entry 16). -/
def Obligations.FcsCheckAcceptsExactlyFcsAppend : Prop :=
  (∀ p : Bytes, crc32 (fcsAppend p) = crcResidue ∧ fcsCheck (fcsAppend p) = .ok p) ∧
  ∀ d p : Bytes, fcsCheck d = .ok p → d = fcsAppend p

/-- R81: the facts of `CRC32` the spec gives for claims about the codec, marked general knowledge (log entry
16): it is linear up to a constant, it maps the four-byte strings one to one onto the 32-bit words, and at a
fixed length it detects every change confined to 32 consecutive bits, a single bit among them. -/
def Obligations.Crc32IsLinearAndDetectsBursts : Prop :=
  (∀ a b : Bytes, a.length = b.length →
    crc32 a ^^^ crc32 b ^^^ crc32 (List.replicate a.length 0) = crc32 (List.zipWith (· ^^^ ·) a b)) ∧
  (∀ w : U32, ∃! q : Bytes, q.length = 4 ∧ crc32 q = w) ∧
  ∀ (a b : Bytes) (k : Nat), a.length = b.length → a ≠ b →
    (∀ i, (i < k ∨ k + 32 ≤ i) → streamBit a i = streamBit b i) → crc32 a ≠ crc32 b

/-! ### Stuffing and the swap -/

/-- R90: every string is cut at its zero bytes in some way, and `COBS_ENC` answers the concatenation of
`seg` over the segments. -/
def Obligations.CobsEncAnswersTheGroups : Prop :=
  (∀ d : Bytes, ∃ ss, ZeroFree ss ∧ d = joinZeros ss) ∧
  ∀ (ss : List Bytes) (s : State), ZeroFree ss →
    exec (.cobsEnc (joinZeros ss)) s = .next (replied (.bytes (specSegs ss)) s)

/-- R91, an inference of the spec ('derived: from rule R90'): no zero in the output, the exact length, the
bounds with when each is met, injectivity. -/
def Obligations.CobsEncIsZeroFreeAndBounded : Prop :=
  (∀ d : Bytes, (0 : Byte) ∉ cobsEnc d) ∧
  (∀ (ss : List Bytes) (x : Bytes), ZeroFree (ss ++ [x]) →
    (cobsEnc (joinZeros (ss ++ [x]))).length
        + (if x ≠ [] ∧ x.length % 254 = 0 then 1 else 0) =
      (joinZeros (ss ++ [x])).length + 1 + ((ss ++ [x]).map (fun y => y.length / 254)).sum) ∧
  (cobsEnc []).length = 1 ∧
  (∀ d : Bytes, d ≠ [] →
    d.length + 1 ≤ (cobsEnc d).length ∧ (cobsEnc d).length ≤ d.length + (d.length + 253) / 254) ∧
  (∀ ss : List Bytes, ZeroFree ss → (∀ x ∈ ss, x.length < 254) →
    (cobsEnc (joinZeros ss)).length = (joinZeros ss).length + 1) ∧
  (∀ d : Bytes, d ≠ [] → (0 : Byte) ∉ d →
    (cobsEnc d).length = d.length + (d.length + 253) / 254) ∧
  ∀ d d' : Bytes, cobsEnc d = cobsEnc d' → d = d'

/-- R92: `COBS_DEC` answers what the loop of the rule computes. -/
def Obligations.CobsDecAnswersTheLoop : Prop :=
  ∀ (c : Bytes) (s : State), exec (.cobsDec c) s = .next (replied
    (if c = [] then .err .malformed else cobsLoop c c.length 0 []) s)

/-- R93, an inference of the spec ('derived: from rules R90 and R92'): the round trip, and which other
strings decode alike. -/
def Obligations.CobsDecInvertsCobsEnc : Prop :=
  (∀ d : Bytes, cobsDec (cobsEnc d) = some d) ∧
  (∀ c d : Bytes, cobsDec c = some d →
    c = cobsEnc d ∨ (c = cobsEnc d ++ [0x01] ∧ EndsFull d)) ∧
  ∀ d : Bytes, EndsFull d → cobsDec (cobsEnc d ++ [0x01]) = some d

/-- R62, R74: what each class of code byte means for the string it begins, run as a row (log entry 11): an
illegal code is `Malformed`; a short one takes `code - 1` data bytes and stands for a zero unless its group
is the last; the full one takes 254 and stands for none. -/
def Obligations.CobsCodeRowsTakeTheirGroup : Prop :=
  (∀ (rest : Bytes) (s : State),
    exec (.cobsCodeIllegal rest) s = .next (replied (.err .malformed) s)) ∧
  (∀ (code : Byte) (blk rest : Bytes) (s : State), code ≠ 0x00 → code ≠ 0xFF →
    blk.length = code.toNat - 1 →
    exec (.cobsCodeShort code (blk ++ rest)) s = .next (replied
      (if (0 : Byte) ∈ blk then .err .malformed
       else if rest = [] then .okBytes blk
       else match cobsDec rest with
         | none => .err .malformed
         | some out => .okBytes (blk ++ 0x00 :: out)) s)) ∧
  (∀ (code : Byte) (rest : Bytes) (s : State), code ≠ 0x00 → code ≠ 0xFF →
    rest.length < code.toNat - 1 →
    exec (.cobsCodeShort code rest) s = .next (replied (.err .malformed) s)) ∧
  (∀ (blk rest : Bytes) (s : State), blk.length = 254 →
    exec (.cobsCodeFull (blk ++ rest)) s = .next (replied
      (if (0 : Byte) ∈ blk then .err .malformed
       else if rest = [] then .okBytes blk
       else match cobsDec rest with
         | none => .err .malformed
         | some out => .okBytes (blk ++ out)) s)) ∧
  ∀ (rest : Bytes) (s : State), rest.length < 254 →
    exec (.cobsCodeFull rest) s = .next (replied (.err .malformed) s)

/-- R94, R95, R96: the two swaps act byte by byte, the result of `SWAP_IN` never holds a zero, and they are
inverse bijections between zero-free and `FLAG`-free strings. The last two clauses are R96, an inference of the
spec ('derived: from rules R94 and R95'). -/
def Obligations.SwapsAreInverseBytewiseMaps : Prop :=
  (∀ (c : Bytes) (s : State), ∃ w : Bytes,
    exec (.swapOut c) s = .next (replied (.bytes w) s) ∧ w.length = c.length ∧
    ∀ i : Nat, i < c.length → w.getD i 0 = if c.getD i 0 = 0x55 then 0x00 else c.getD i 0) ∧
  (∀ (f : Bytes) (s : State), ∃ w : Bytes,
    exec (.swapIn f) s = .next (replied (.bytes w) s) ∧ w.length = f.length ∧ (0 : Byte) ∉ w ∧
    ∀ i : Nat, i < f.length → w.getD i 0 = if f.getD i 0 = 0x00 then 0x55 else f.getD i 0) ∧
  (∀ c : Bytes, (0 : Byte) ∉ c → (0x55 : Byte) ∉ swapOut c ∧ swapIn (swapOut c) = c) ∧
  ∀ f : Bytes, (0x55 : Byte) ∉ f → (0 : Byte) ∉ swapIn f ∧ swapOut (swapIn f) = f

/-! ### The frame codec -/

/-- R100, R101: the wire frame of a datagram is `FLAG`, contents without `FLAG`, `FLAG`; its length is
bounded; distinct datagrams have distinct frames. All but the first clause are R101, an inference of the spec
('derived: from rule R100'). -/
def Obligations.EncodeFrameHasNoInnerFlag : Prop :=
  (∀ (p : Bytes) (s : State), exec (.encodeFrame p) s = .next
    (replied (.bytes ([0x55] ++ swapOut (cobsEnc (p ++ fcsBytes p)) ++ [0x55])) s)) ∧
  (∀ p : Bytes, encodeFrame p = [0x55] ++ contents (encodeFrame p) ++ [0x55] ∧
    (0x55 : Byte) ∉ contents (encodeFrame p)) ∧
  (∀ p : Bytes, p.length + 5 ≤ (contents (encodeFrame p)).length ∧
    (contents (encodeFrame p)).length ≤ p.length + 4 + (p.length + 4 + 253) / 254) ∧
  ∀ p p' : Bytes, encodeFrame p = encodeFrame p' → p = p'

/-- R102: `DECODE_FRAME` makes its three tests in order and reports the first that fails. -/
def Obligations.DecodeFrameReportsTheFirstFailure : Prop :=
  (∀ (f : Bytes) (s : State), (0x55 : Byte) ∈ f →
    exec (.decodeFrame f) s = .next (replied (.err (.cause .decodeErrorFlagInFrame)) s)) ∧
  (∀ (f : Bytes) (s : State), (0x55 : Byte) ∉ f → cobsDec (swapIn f) = none →
    exec (.decodeFrame f) s = .next (replied (.err (.cause .decodeErrorMalformed)) s)) ∧
  ∀ (f d : Bytes) (s : State), (0x55 : Byte) ∉ f → cobsDec (swapIn f) = some d →
    exec (.decodeFrame f) s = .next (replied
      (if d.length < 4 ∨ crcNat d ≠ 0x2144DF1C then .err (.cause .corruptFrame)
       else .okBytes (d.take (d.length - 4))) s)

/-- R103 (a), an inference of the spec, marked derived: the round trip of the codec, with the boundary
`FLAG` bytes removed (C1). -/
def Obligations.DecodeFrameInvertsEncodeFrame : Prop :=
  ∀ (p : Bytes) (s : State),
    exec (.decodeFrame (contents (encodeFrame p))) s = .next (replied (.okBytes p) s)

/-- R103 (b), an inference of the spec, marked derived: a wire frame fed byte by byte, from either mode with
an empty buffer and with room for its contents, completes exactly one frame: what the run does is what that
one `RX_FRAME` does, with contents that decode to the datagram. -/
def Obligations.FrameRoundTripsThroughTheStream : Prop :=
  ∀ (P : Params) (p : Bytes) (s : State), s.ifOpen = true → s.buf = [] →
    (encodeFrame p).length - 2 ≤ P.maxFrameLen →
    rxRun P (encodeFrame p) s = rxFrameOp P (contents (encodeFrame p)) { s with mode := .collect } ∧
    decodeFrame (contents (encodeFrame p)) = .ok p

/-- Inferred from R55, R103, R111 and R122: end to end. The frame a send puts on `TXB` for a payload,
received by a block that has the protocol number bound to a socket, adds exactly that payload to that
socket's queue, and with the tap on one record to `CAP`. -/
def Obligations.SentFrameDeliversItsPayload : Prop :=
  ∀ (P : Params) (n : U16) (payload : Bytes) (sid : SockId) (s : State),
    s.ifOpen = true → s.buf = [] → P.queueDepth = none →
    (encodeFrame (encap n payload)).length - 2 ≤ P.maxFrameLen →
    Store.find n.toNat s.proto = some (.raw sid) →
    rxRun P (encodeFrame (encap n payload)) s =
      delivered sid payload (captured 0x00 (bytes16 n.toNat ++ payload) { s with mode := .collect })

/-! ### The datagram header and the packet formats -/

/-- R115, R116, R117: `ENCAP` puts the number before the payload, `UNENCAP` takes it off or reports a string
of fewer than two bytes. The last two clauses, that they are inverse bijections, are R117, an inference of the
spec ('derived: from rules R115 and R116'). -/
def Obligations.DatagramHeaderIsTwoBigEndianBytes : Prop :=
  (∀ (n : U16) (payload : Bytes) (s : State),
    exec (.encap n payload) s = .next (replied (.bytes (bytes16 n.toNat ++ payload)) s)) ∧
  (∀ (d : Bytes) (s : State), d.length < 2 →
    exec (.unencap d) s = .next (replied (.err (.cause .datagramTooShort)) s)) ∧
  (∀ (hi lo : Byte) (payload : Bytes) (s : State), exec (.unencap (hi :: lo :: payload)) s = .next
    (replied (.okPair (BitVec.ofNat 16 (num16 hi lo)) payload) s)) ∧
  (∀ (n : U16) (payload : Bytes), unencap (encap n payload) = .ok (n, payload)) ∧
  ∀ (d : Bytes) (n : U16) (payload : Bytes), 2 ≤ d.length → unencap d = .ok (n, payload) →
    encap n payload = d

/-- R135, R136: `BE_BUILD` and `BE_PARSE`; the bytes after `length` are padding and not looked at. -/
def Obligations.BestEffortPacketsAreBuiltAndParsed : Prop :=
  (∀ (port : U16) (payload : Bytes) (s : State), exec (.beBuild port payload) s = .next (replied
    (if payload.length + 4 > 0xFFFF then .err .lengthOverflow
     else .okBytes (bytes16 port.toNat ++ bytes16 (payload.length + 4) ++ payload)) s)) ∧
  (∀ (u : Bytes) (s : State), u.length < 4 →
    exec (.beParse u) s = .next (replied (.err (.cause .bePacketMalformed)) s)) ∧
  ∀ (p0 p1 l0 l1 : Byte) (rest : Bytes) (s : State),
    exec (.beParse (p0 :: p1 :: l0 :: l1 :: rest)) s = .next (replied
      (if num16 l0 l1 < 4 ∨ num16 l0 l1 > rest.length + 4 then .err (.cause .bePacketMalformed)
       else .okPair (BitVec.ofNat 16 (num16 p0 p1)) (rest.take (num16 l0 l1 - 4))) s)

/-- R143, R144: `REL_BUILD_INFO` and `REL_BUILD_SUP`. -/
def Obligations.ReliablePacketsAreBuiltFieldByField : Prop :=
  (∀ (ns nr : Seq7) (poll : Bit1) (port : U16) (payload : Bytes) (s : State),
    exec (.relBuildInfo ns nr poll port payload) s = .next (replied
      (if payload.length + 6 > 0xFFFF then .err .lengthOverflow
       else .okBytes ([BitVec.ofNat 8 (2 * ns.toNat), BitVec.ofNat 8 (2 * nr.toNat + poll.toNat)]
         ++ bytes16 port.toNat ++ bytes16 (payload.length + 6) ++ payload)) s)) ∧
  ∀ (kind : SupKind) (nr : Seq7) (pf : Bit1) (s : State),
    exec (.relBuildSup kind nr pf) s = .next (replied
      (.bytes [match kind with
        | .rr => 0x01
        | .rnr => 0x05
        | .rej => 0x09, BitVec.ofNat 8 (2 * nr.toNat + pf.toNat)]) s)

/-- R145: `REL_PARSE`, in arithmetic on the bytes. -/
def Obligations.RelParseClassifiesByByte0 : Prop :=
  (∀ (u : Bytes) (s : State), u.length < 2 →
    exec (.relParse u) s = .next (replied (.err (.cause .relPacketMalformed)) s)) ∧
  (∀ (u : Bytes) (s : State), 2 ≤ u.length → u.length < 6 → (u.getD 0 0).toNat % 2 = 0 →
    exec (.relParse u) s = .next (replied (.err (.cause .relPacketMalformed)) s)) ∧
  (∀ (b0 b1 p0 p1 l0 l1 : Byte) (rest : Bytes) (s : State), b0.toNat % 2 = 0 →
    exec (.relParse (b0 :: b1 :: p0 :: p1 :: l0 :: l1 :: rest)) s = .next (replied
      (if num16 l0 l1 < 6 ∨ num16 l0 l1 > rest.length + 6 then .err (.cause .relPacketMalformed)
       else .okRel (.info (BitVec.ofNat 7 (b0.toNat / 2)) (BitVec.ofNat 7 (b1.toNat / 2))
         (BitVec.ofNat 1 b1.toNat) (BitVec.ofNat 16 (num16 p0 p1))
         (rest.take (num16 l0 l1 - 6)))) s)) ∧
  ∀ (b0 b1 : Byte) (rest : Bytes) (s : State), b0.toNat % 2 = 1 →
    exec (.relParse (b0 :: b1 :: rest)) s = .next (replied
      (if b0.toNat % 4 = 3 then .err (.cause .relPacketMalformed)
       else if params.relReservedStrict = true ∧ b0.toNat / 16 ≠ 0 then
         .err (.cause .relPacketMalformed)
       else match b0.toNat / 4 % 4 with
         | 0 => .okRel (.sup .rr (BitVec.ofNat 7 (b1.toNat / 2)) (BitVec.ofNat 1 b1.toNat))
         | 1 => .okRel (.sup .rnr (BitVec.ofNat 7 (b1.toNat / 2)) (BitVec.ofNat 1 b1.toNat))
         | 2 => .okRel (.sup .rej (BitVec.ofNat 7 (b1.toNat / 2)) (BitVec.ofNat 1 b1.toNat))
         | _ => .err (.cause .relPacketMalformed)) s)

/-- Inferred from R68, R136 and R145: each parser reads back every packet its builder makes, whatever
padding follows. -/
def Obligations.ParsersReadBackBuiltPackets : Prop :=
  (∀ (port : U16) (payload pkt pad : Bytes), beBuild port payload = some pkt →
    beParse (pkt ++ pad) = .ok (port, payload)) ∧
  (∀ (P : Params) (ns nr : Seq7) (poll : Bit1) (port : U16) (payload pkt pad : Bytes),
    relBuildInfo ns nr poll port payload = some pkt →
    relParse P (pkt ++ pad) = .ok (.info ns nr poll port payload)) ∧
  ∀ (P : Params) (kind : SupKind) (nr : Seq7) (pf : Bit1) (pad : Bytes),
    relParse P (relBuildSup kind nr pf ++ pad) = .ok (.sup kind nr pf)

/-- R69, R74: the rows of byte 0 of a reliable packet, run by themselves (log entry 11), answer as
`REL_PARSE` answers: an info packet by its six header bytes, a supervisory one by byte 1 and its reserved
bits, and the undefined ones by `RelPacketMalformed`. -/
def Obligations.ReliableByte0RowsAnswerLikeRelParse : Prop :=
  (∀ (ns : Seq7) (b1 p0 p1 l0 l1 : Byte) (rest : Bytes) (s : State),
    exec (.relInfo ns (b1 :: p0 :: p1 :: l0 :: l1 :: rest)) s = .next (replied
      (if num16 l0 l1 < 6 ∨ num16 l0 l1 > rest.length + 6 then .err (.cause .relPacketMalformed)
       else .okRel (.info ns (BitVec.ofNat 7 (b1.toNat / 2)) (BitVec.ofNat 1 b1.toNat)
         (BitVec.ofNat 16 (num16 p0 p1)) (rest.take (num16 l0 l1 - 6)))) s)) ∧
  (∀ (ns : Seq7) (rest : Bytes) (s : State), rest.length < 5 →
    exec (.relInfo ns rest) s = .next (replied (.err (.cause .relPacketMalformed)) s)) ∧
  (∀ (res : BitVec 4) (b1 : Byte) (rest : Bytes) (s : State),
    let sup := fun k => replied
      (if params.relReservedStrict = true ∧ res ≠ 0 then .err (.cause .relPacketMalformed)
       else .okRel (.sup k (BitVec.ofNat 7 (b1.toNat / 2)) (BitVec.ofNat 1 b1.toNat))) s
    exec (.relSupRr res (b1 :: rest)) s = .next (sup .rr) ∧
    exec (.relSupRnr res (b1 :: rest)) s = .next (sup .rnr) ∧
    exec (.relSupRej res (b1 :: rest)) s = .next (sup .rej)) ∧
  (∀ (res : BitVec 4) (s : State),
    exec (.relSupRr res []) s = .next (replied (.err (.cause .relPacketMalformed)) s) ∧
    exec (.relSupRnr res []) s = .next (replied (.err (.cause .relPacketMalformed)) s) ∧
    exec (.relSupRej res []) s = .next (replied (.err (.cause .relPacketMalformed)) s)) ∧
  ∀ (res : BitVec 4) (high : BitVec 6) (rest : Bytes) (s : State),
    exec (.relSupKindUndefined res rest) s =
      .next (replied (.err (.cause .relPacketMalformed)) s) ∧
    exec (.relUndefined high rest) s = .next (replied (.err (.cause .relPacketMalformed)) s)

/-! ### The FrameSplitter -/

/-- R71, an inference of the spec ('derived: from 42_frame_codec.md rules R104 to R110 and R113'): the table
of cases is complete and each situation selects exactly one row. The hypothesis on the buffer is item 1 of
R32. -/
def Obligations.ReceivedByteSelectsOneCase : Prop :=
  ∀ (b : Byte) (s : State), BufInv params s →
    (rxCase params b s = .ignored ↔ s.ifOpen = false) ∧
    (rxCase params b s = .syncSkip ↔ s.ifOpen = true ∧ s.mode = .waitSync ∧ b ≠ 0x55) ∧
    (rxCase params b s = .syncFlag ↔ s.ifOpen = true ∧ s.mode = .waitSync ∧ b = 0x55) ∧
    (rxCase params b s = .collectData ↔
      s.ifOpen = true ∧ s.mode = .collect ∧ b ≠ 0x55 ∧ s.buf.length < params.maxFrameLen) ∧
    (rxCase params b s = .collectOverflow ↔
      s.ifOpen = true ∧ s.mode = .collect ∧ b ≠ 0x55 ∧ s.buf.length = params.maxFrameLen) ∧
    (rxCase params b s = .flagEmpty ↔
      s.ifOpen = true ∧ s.mode = .collect ∧ b = 0x55 ∧ s.buf = []) ∧
    (rxCase params b s = .flagFrame ↔
      s.ifOpen = true ∧ s.mode = .collect ∧ b = 0x55 ∧ s.buf ≠ [])

/-- R105 to R108, R113: the cases but the two of a `FLAG` while collecting. Each row does the same as
`RX_BYTE` where the state selects it: a byte is ignored on a closed interface, skipped or taken as the sync
in `WAIT_SYNC`, and stored in `COLLECT` while the buffer has room; the first byte too many clears the buffer,
goes back to `WAIT_SYNC` and reports `FrameTooLong` (code 0x01). -/
def Obligations.BytesSyncAreStoredOrOverflow : Prop :=
  (∀ (b : Byte) (s : State), s.ifOpen = false →
    exec (.rxByte b) s = .next s ∧ exec (.rxIgnored b) s = .next s) ∧
  (∀ (b : Byte) (s : State), s.ifOpen = true → s.mode = .waitSync → b ≠ 0x55 →
    exec (.rxByte b) s = .next s ∧ exec (.syncSkip b) s = .next s) ∧
  (∀ s : State, s.ifOpen = true → s.mode = .waitSync →
    exec (.rxByte 0x55) s = .next { s with mode := .collect } ∧
    exec .syncFlag s = .next { s with mode := .collect }) ∧
  (∀ (b : Byte) (s : State), s.ifOpen = true → s.mode = .collect → b ≠ 0x55 →
    s.buf.length < params.maxFrameLen →
    exec (.rxByte b) s = .next { s with buf := s.buf ++ [b] } ∧
    exec (.collectData b) s = .next { s with buf := s.buf ++ [b] }) ∧
  ∀ (b : Byte) (s : State), s.ifOpen = true → s.mode = .collect → b ≠ 0x55 →
    s.buf.length = params.maxFrameLen →
    exec (.rxByte b) s =
      .next (reported 0x01 none { s with buf := [], mode := .waitSync }) ∧
    exec (.collectOverflow b) s =
      .next (reported 0x01 none { s with buf := [], mode := .waitSync })

/-- R109, R110: a `FLAG` on an empty buffer changes nothing; on a buffer with contents it takes them, empties
the buffer and runs `RX_FRAME`, and the mode stays `COLLECT` whatever that does. -/
def Obligations.FlagEndsAFrame : Prop :=
  (∀ s : State, s.ifOpen = true → s.mode = .collect → s.buf = [] →
    exec (.rxByte 0x55) s = .next s ∧ exec .flagEmpty s = .next s) ∧
  ∀ s : State, s.ifOpen = true → s.mode = .collect → s.buf ≠ [] →
    ∃ t : State, exec (.rxByte 0x55) s = .next t ∧ exec .flagFrame s = .next t ∧
      exec (.rxFrame s.buf) { s with buf := [] } = .next t ∧ t.mode = .collect ∧ t.buf = []

/-- R111, R154: `RX_FRAME` reports the first check that fails and does nothing after it; a frame that fails
to decode is not captured; an intact datagram is captured, then dispatched or reported as too short. -/
def Obligations.RxFrameDecodesCapturesDispatches : Prop :=
  (∀ (f : Bytes) (s : State), (0x55 : Byte) ∉ f → cobsDec (swapIn f) = none →
    exec (.rxFrame f) s = .next (reported 0x03 none s)) ∧
  (∀ (f d : Bytes) (s : State), (0x55 : Byte) ∉ f → cobsDec (swapIn f) = some d →
    (d.length < 4 ∨ crcNat d ≠ 0x2144DF1C) →
    exec (.rxFrame f) s = .next (reported 0x04 none s)) ∧
  (∀ (f dg : Bytes) (s : State), decodeFrame f = .ok dg → dg.length < 2 →
    exec (.rxFrame f) s = .next (reported 0x05 (some dg.length) (captured 0x00 dg s))) ∧
  ∀ (f payload : Bytes) (hi lo : Byte) (s : State), decodeFrame f = .ok (hi :: lo :: payload) →
    ∃ t, exec (.rxFrame f) s = .next t ∧
      exec (.dispatch (BitVec.ofNat 16 (num16 hi lo)) payload)
        (captured 0x00 (hi :: lo :: payload) s) = .next t

/-- R112: `RX_CHUNK` is one atomic `RX_BYTE` step for each of its bytes, in order. It offers the bytes to the
receive agent with a turn for each (the model's choice, log entry 13); with nothing else waiting, the steps
that follow are those of the bytes; the turns of the receive agent take the bytes that wait first; how a
stream is cut into chunks never changes the result (an inference of the spec, 'derived: from rule R104'). -/
def Obligations.ChunksAreSuccessiveBytes : Prop :=
  (∀ (bs : Bytes) (s : State), exec (.rxChunk bs) s = .next
    { s with rxbIn := s.rxbIn ++ bs, sched := s.sched ++ List.replicate bs.length .rxb }) ∧
  (∀ (bs : Bytes) (s : State), s.rxbIn = [] → s.sched = [] →
    ∃ t : State, exec (.rxChunk bs) s = .next t ∧
      Host.Core.run core bs.length t = .next (rxRun params bs s)) ∧
  (∀ (bs rest : Bytes) (ts : List Turn) (s : State),
    Host.Core.run core bs.length
        ({ s with rxbIn := bs ++ rest, sched := List.replicate bs.length .rxb ++ ts } : State) =
      .next ({ rxRun params bs s with rxbIn := rest, sched := ts } : State)) ∧
  ∀ (P : Params) (a b : Bytes) (s : State), rxRun P (a ++ b) s = rxRun P b (rxRun P a s)

/-- R156 with R110 and R106: recovery. Whatever bytes arrive on an open interface, after the next `FLAG` the
block is collecting with an empty buffer, and a wire frame that follows is handled as from there: one
`RX_FRAME`, with contents that decode to its datagram. The premise on the buffer is item 1 of R32. -/
def Obligations.FrameAfterTheNextFlagIsReceived : Prop :=
  ∀ (P : Params) (noise : Bytes) (s : State), s.ifOpen = true → BufInv P s →
    (rxRun P (noise ++ [0x55]) s).mode = .collect ∧ (rxRun P (noise ++ [0x55]) s).buf = [] ∧
    ∀ p : Bytes, (encodeFrame p).length - 2 ≤ P.maxFrameLen →
      rxRun P (noise ++ 0x55 :: encodeFrame p) s =
        rxFrameOp P (contents (encodeFrame p)) (rxRun P (noise ++ [0x55]) s) ∧
      decodeFrame (contents (encodeFrame p)) = .ok p

/-! ### Faults -/

/-- R152, R155: fault entry appends one event, with the code of the cause, and changes nothing else. -/
def Obligations.FaultEntryIsOneEvent : Prop :=
  ∀ (info : Option Nat) (s : State),
    raise .frameTooLong info s = reported 0x01 info s ∧
    raise .decodeErrorFlagInFrame info s = reported 0x02 info s ∧
    raise .decodeErrorMalformed info s = reported 0x03 info s ∧
    raise .corruptFrame info s = reported 0x04 info s ∧
    raise .datagramTooShort info s = reported 0x05 info s ∧
    raise .unregisteredProtocol info s = reported 0x06 info s ∧
    raise .bePacketMalformed info s = reported 0x07 info s ∧
    raise .bePortNotOpen info s = reported 0x08 info s ∧
    raise .relPortNotOpen info s = reported 0x09 info s ∧
    raise .relPacketMalformed info s = reported 0x0A info s ∧
    raise .queueFull info s = reported 0x0B info s

/-- R154, R157, inferences of the spec ('derived: from rule R155'): one step raises at most one fault, and a
step that raises one sends nothing on `TXB`, closes no socket, changes no registry and delivers no part of a
unit. -/
def Obligations.FaultingStepOnlyReports : Prop :=
  ∀ s t : State, step s = .next t →
    t.diag = s.diag ∨
    ((∃ e, t.diag = s.diag ++ [e]) ∧ t.txb = s.txb ∧ t.sock = s.sock ∧ t.proto = s.proto ∧
      t.beport = s.beport ∧ t.relport = s.relport)

/-- R29: the only operation on a history is to append; a step never takes back what was emitted. -/
def Obligations.OutputHistoriesOnlyGrow : Prop :=
  ∀ s t : State, step s = .next t →
    s.txb <+: t.txb ∧ s.cap <+: t.cap ∧ s.diag <+: t.diag ∧ s.bsClosed ≤ t.bsClosed ∧
    s.cmdOut <+: t.cmdOut ∧ s.rcvOut <+: t.rcvOut

/-! ### The switch -/

/-- R120: `BIND`. -/
def Obligations.BindRegistersOneNewSocket : Prop :=
  (∀ (sp : Space) (key : U16) (s : State), s.ifOpen = false →
    exec (.bind sp key) s = .next (replied (.err .interfaceClosed) s)) ∧
  (∀ (key : U16) (s : State), s.ifOpen = true → Store.find 0x3A29 s.proto ≠ some .beSwitch →
    exec (.bind .beport key) s = .next (replied (.err .notAttached) s)) ∧
  (∀ (sp : Space) (key : U16) (s : State), s.ifOpen = true →
    (sp = .beport → Store.find 0x3A29 s.proto = some .beSwitch) → bound sp key s = true →
    exec (.bind sp key) s = .next (replied (.err .alreadyBound) s)) ∧
  ∀ (sp : Space) (key : U16) (s : State), s.ifOpen = true →
    (sp = .beport → Store.find 0x3A29 s.proto = some .beSwitch) → bound sp key s = false →
    ∃ pr be re sk, exec (.bind sp key) s = .next
        { s with proto := pr, beport := be, relport := re, sock := sk, nextSid := s.nextSid + 1,
                 cmdOut := s.cmdOut ++ [.okSid s.nextSid] } ∧
      (∀ a, Store.find a sk = if a = s.nextSid then
          some { space := sp, key := key, closed := false, queue := [] } else Store.find a s.sock) ∧
      (∀ n, Store.find n pr = if sp = .proto ∧ n = key.toNat then some (.raw s.nextSid)
        else Store.find n s.proto) ∧
      (∀ n, Store.find n be = if sp = .beport ∧ n = key.toNat then some s.nextSid
        else Store.find n s.beport) ∧
      ∀ n, Store.find n re = if sp = .relport ∧ n = key.toNat then some s.nextSid
        else Store.find n s.relport

/-- R121: `CLOSE`. -/
def Obligations.CloseUnregistersTheSocket : Prop :=
  (∀ (sid : SockId) (s : State), Store.find sid s.sock = none →
    exec (.close sid) s = .next (replied (.err .noSuchSocket) s)) ∧
  (∀ (sid : SockId) (k : Socket) (s : State), Store.find sid s.sock = some k → k.closed = true →
    exec (.close sid) s = .next (replied .ok s)) ∧
  ∀ (sid : SockId) (k : Socket) (s : State), Store.find sid s.sock = some k → k.closed = false →
    ∃ pr be re sk, exec (.close sid) s = .next
        { s with proto := pr, beport := be, relport := re, sock := sk, cmdOut := s.cmdOut ++ [.ok] } ∧
      (∀ a, Store.find a sk = if a = sid then some { k with closed := true, queue := [] }
        else Store.find a s.sock) ∧
      (∀ n, Store.find n pr = if k.space = .proto ∧ n = k.key.toNat then none
        else Store.find n s.proto) ∧
      (∀ n, Store.find n be = if k.space = .beport ∧ n = k.key.toNat then none
        else Store.find n s.beport) ∧
      ∀ n, Store.find n re = if k.space = .relport ∧ n = k.key.toNat then none
        else Store.find n s.relport

/-- R122, R131: `DISPATCH` routes by exact match of the whole number against the registry; an unbound number
is dropped with one event and no reply. -/
def Obligations.DispatchRoutesByTheRegistry : Prop :=
  (∀ (n : U16) (payload : Bytes) (s : State), Store.find n.toNat s.proto = none →
    exec (.dispatch n payload) s = .next (reported 0x06 (some n.toNat) s)) ∧
  (∀ (n : U16) (payload : Bytes) (sid : SockId) (s : State),
    Store.find n.toNat s.proto = some (.raw sid) →
    exec (.dispatch n payload) s = .next (delivered sid payload s)) ∧
  ∀ (n : U16) (payload : Bytes) (s : State), Store.find n.toNat s.proto = some .beSwitch →
    ∃ t, exec (.dispatch n payload) s = .next t ∧ exec (.beDemux payload) s = .next t

/-- R46, R47, R74: the six assigned protocol numbers and the PCMP port, run as rows (log entry 11): none is
routed otherwise than by the registry, and "the block treats it as any port". -/
def Obligations.AssignedNumbersAreRoutedLikeAnyOther : Prop :=
  (∀ (payload : Bytes) (s : State) (row : U16 × Instr),
    row ∈ [((0xC021 : U16), Instr.protoLcp payload), (0xBA29, .protoBeNcp payload),
      (0x3A29, .protoBeData payload), (0xBA33, .protoRelNcp payload), (0x3A33, .protoRelCmd payload),
      (0x3A35, .protoRelRsp payload)] →
    (Store.find row.1.toNat s.proto = none →
      exec row.2 s = .next (reported 0x06 (some row.1.toNat) s)) ∧
    (∀ sid, Store.find row.1.toNat s.proto = some (.raw sid) →
      exec row.2 s = .next (delivered sid payload s)) ∧
    (Store.find row.1.toNat s.proto = some .beSwitch →
      ∃ t, exec row.2 s = .next t ∧ exec (.beDemux payload) s = .next t)) ∧
  ∀ (payload : Bytes) (s : State),
    (Store.find 1 s.beport = none →
      exec (.pcmpPort .beport payload) s = .next (reported 0x08 (some 1) s)) ∧
    (∀ sid, Store.find 1 s.beport = some sid →
      exec (.pcmpPort .beport payload) s = .next (delivered sid payload s)) ∧
    (Store.find 1 s.relport = none →
      exec (.pcmpPort .relport payload) s = .next (reported 0x09 (some 1) s)) ∧
    ∀ sid, Store.find 1 s.relport = some sid →
      exec (.pcmpPort .relport payload) s = .next (delivered sid payload s)

/-- R123: `ENQUEUE` pushes at the tail of an open socket's queue; a finite depth that is reached drops the
payload with `QueueFull`. On an id that names no open socket, outside the operation's domain, the model
stops (log entry 10). -/
def Obligations.EnqueuePushesOnOpenSockets : Prop :=
  (∀ (sid : SockId) (payload : Bytes) (k : Socket) (s : State),
    Store.find sid s.sock = some k → k.closed = false →
    exec (.enqueue sid payload) s = .next (delivered sid payload s)) ∧
  (∀ (P : Params) (sid : SockId) (payload : Bytes) (k : Socket) (s : State),
    Store.find sid s.sock = some k →
    enqueueOp P sid payload s =
      if P.queueDepth = some k.queue.length then reported 0x0B (some sid) s
      else delivered sid payload s) ∧
  ∀ (sid : SockId) (payload : Bytes) (s : State),
    (∀ k, Store.find sid s.sock = some k → k.closed = true) →
    exec (.enqueue sid payload) s = .fault (.socketNotOpen sid)

/-- R124, R126: `TX_DATAGRAM` appends one whole wire frame, and with the tap on one record. -/
def Obligations.TxDatagramEmitsOneWholeFrame : Prop :=
  ∀ (n : U16) (payload : Bytes) (s : State), exec (.txDatagram n payload) s = .next
    { s with
      cap := if s.capEn then s.cap ++ [0x01 :: (bytes16 n.toNat ++ payload)] else s.cap
      txb := s.txb ++ encodeFrame (bytes16 n.toNat ++ payload) }

/-- R125, R147: the refusals of `SEND`, the same for its three rows (R75); `SEND` on a protocol socket, and on
a reliable port socket, which answers `NotSupported` and changes nothing. That `BE_SEND` and `REL_SEND` on a
socket of another space do what `SEND` does is the model's reading (DEDUCED, log entry 9). -/
def Obligations.SendIsRefusedOrSendsByTheSocketsSpace : Prop :=
  ∀ (sid : SockId) (payload : Bytes) (s : State) (i : Instr),
    i ∈ [Instr.send sid payload, .beSend sid payload, .relSend sid payload] →
    (Store.find sid s.sock = none → exec i s = .next (replied (.err .noSuchSocket) s)) ∧
    ∀ k, Store.find sid s.sock = some k →
      (k.closed = true → exec i s = .next (replied (.err .socketClosed) s)) ∧
      (k.closed = false → s.ifOpen = false →
        exec i s = .next (replied (.err .interfaceClosed) s)) ∧
      (k.closed = false → s.ifOpen = true → k.space = .proto → exec i s = .next
        { s with
          cap := if s.capEn then s.cap ++ [0x01 :: (bytes16 k.key.toNat ++ payload)] else s.cap
          txb := s.txb ++ encodeFrame (bytes16 k.key.toNat ++ payload)
          cmdOut := s.cmdOut ++ [.ok] }) ∧
      (k.closed = false → s.ifOpen = true → k.space = .relport →
        exec i s = .next (replied (.err .notSupported) s))

/-- R141, R148: `SEND` on an open best-effort port socket of an open interface. That all three rows, `REL_SEND`
among them, do this there is the model's reading (DEDUCED, log entry 9). -/
def Obligations.SendOnABestEffortPort : Prop :=
  ∀ (sid : SockId) (payload : Bytes) (k : Socket) (s : State) (i : Instr),
    i ∈ [Instr.send sid payload, .beSend sid payload, .relSend sid payload] →
    Store.find sid s.sock = some k → k.closed = false → s.ifOpen = true → k.space = .beport →
    (Store.find 0x3A29 s.proto ≠ some .beSwitch →
      exec i s = .next (replied (.err .notAttached) s)) ∧
    (Store.find 0x3A29 s.proto = some .beSwitch →
      (s.beSimplex = true → exec i s = .next (replied (.err .sendDisabled) s)) ∧
      (s.beSimplex = false → s.linkMtu.toNat - 4 < payload.length →
        exec i s = .next (replied (.err .payloadTooLong) s)) ∧
      (s.beSimplex = false → payload.length ≤ s.linkMtu.toNat - 4 →
        let pkt := bytes16 k.key.toNat ++ bytes16 (payload.length + 4) ++ payload
        exec i s = .next
          { s with
            cap := if s.capEn then s.cap ++ [0x01 :: (bytes16 0x3A29 ++ pkt)] else s.cap
            txb := s.txb ++ encodeFrame (bytes16 0x3A29 ++ pkt)
            cmdOut := s.cmdOut ++ [.ok] }))

/-- R127: `RECV`, answered on `RCV`. -/
def Obligations.RecvTakesTheOldestPayload : Prop :=
  (∀ (sid : SockId) (s : State), Store.find sid s.sock = none →
    exec (.recv sid) s = .next { s with rcvOut := s.rcvOut ++ [.err .noSuchSocket] }) ∧
  ∀ (sid : SockId) (k : Socket) (s : State), Store.find sid s.sock = some k →
    (k.closed = true →
      exec (.recv sid) s = .next { s with rcvOut := s.rcvOut ++ [.err .socketClosed] }) ∧
    (k.closed = false → k.queue = [] →
      exec (.recv sid) s = .next { s with rcvOut := s.rcvOut ++ [.err .receiveQueueEmpty] }) ∧
    ∀ p rest, k.closed = false → k.queue = p :: rest →
      ∃ sk, exec (.recv sid) s = .next
          { s with sock := sk, rcvOut := s.rcvOut ++ [.okBytes p] } ∧
        ∀ a, Store.find a sk = if a = sid then some { k with queue := rest }
          else Store.find a s.sock

/-- Inferred from R44 and R54: first in, first out, each payload once: two payloads dispatched to an open
socket with an empty queue come out of it in the order they arrived, and a third `RECV` finds the queue
empty. -/
def Obligations.QueueIsFirstInFirstOut : Prop :=
  ∀ (n : U16) (p q : Bytes) (sid : SockId) (k : Socket) (s : State),
    Store.find n.toNat s.proto = some (.raw sid) → Store.find sid s.sock = some k →
    k.closed = false → k.queue = [] →
    ∃ s1 s2 s3 s4 s5 : State,
      exec (.dispatch n p) s = .next s1 ∧ exec (.dispatch n q) s1 = .next s2 ∧
      exec (.recv sid) s2 = .next s3 ∧ exec (.recv sid) s3 = .next s4 ∧
      exec (.recv sid) s4 = .next s5 ∧
      s5.rcvOut = s.rcvOut ++ [.okBytes p, .okBytes q, .err .receiveQueueEmpty]

/-- R128: `IF_CLOSE` on an open interface that meets the invariants of R32 closes every socket, empties the
registries and the splitter and emits one token; on a closed one it changes nothing. -/
def Obligations.InterfaceCloseCascades : Prop :=
  (∀ s : State, s.ifOpen = false → exec .ifClose s = .next (replied .ok s)) ∧
  ∀ s : State, Inv params s → s.ifOpen = true →
    ∃ sk, exec .ifClose s = .next
        { s with
          proto := [], beport := [], relport := [], sock := sk, beSimplex := false,
          mode := .waitSync, buf := [], ifOpen := false, bsClosed := s.bsClosed + 1,
          cmdOut := s.cmdOut ++ [.ok] } ∧
      ∀ a, Store.find a sk =
        (Store.find a s.sock).map (fun k => { k with closed := true, queue := [] })

/-- R184, an inference of the spec ('derived: from 42_frame_codec.md rule R113 and 44_protocol_switch.md rule
R128'): after the interface is closed, in a state that meets the invariants of R32, bytes are ignored,
nothing can be bound or attached, and every existing socket answers `SocketClosed`. -/
def Obligations.ClosedInterfaceIsDeaf : Prop :=
  ∀ s : State, Inv params s → s.ifOpen = false →
    (∀ b, exec (.rxByte b) s = .next s) ∧
    (∀ sp key, exec (.bind sp key) s = .next (replied (.err .interfaceClosed) s)) ∧
    (∀ x, exec (.tpAttach x) s = .next (replied (.err .interfaceClosed) s)) ∧
    ∀ (sid : SockId) (payload : Bytes), Store.find sid s.sock ≠ none →
      exec (.send sid payload) s = .next (replied (.err .socketClosed) s) ∧
      exec (.recv sid) s = .next { s with rcvOut := s.rcvOut ++ [.err .socketClosed] }

/-- R129, R130: the two configuration commands write one register each, whatever `S.if_open` is. -/
def Obligations.ConfigurationCommandsWriteOneRegister : Prop :=
  (∀ (v : U16) (s : State),
    exec (.setMtu v) s = .next { s with linkMtu := v, cmdOut := s.cmdOut ++ [.ok] }) ∧
  ∀ (en : Bool) (s : State),
    exec (.setCap en) s = .next { s with capEn := en, cmdOut := s.cmdOut ++ [.ok] }

/-- R126: the capture tap: a frame that fails to decode is not captured, an intact datagram is captured
whatever becomes of it, a sent one is captured, with the tap off nothing is ever emitted on `CAP`, and
whether it is on changes nothing else of what a frame or a send causes. -/
def Obligations.CaptureTapCopiesIntactDatagrams : Prop :=
  (∀ (f : Bytes) (e : Cause) (s t : State), decodeFrame f = .error e →
    exec (.rxFrame f) s = .next t → t.cap = s.cap) ∧
  (∀ (f dg : Bytes) (s : State), decodeFrame f = .ok dg → s.capEn = true →
    ∃ t, exec (.rxFrame f) s = .next t ∧ t.cap = s.cap ++ [0x00 :: dg]) ∧
  (∀ (n : U16) (payload : Bytes) (s : State), s.capEn = true →
    ∃ t, exec (.txDatagram n payload) s = .next t ∧
      t.cap = s.cap ++ [0x01 :: (bytes16 n.toNat ++ payload)]) ∧
  (∀ s t : State, s.capEn = false → step s = .next t → t.cap = s.cap) ∧
  ∀ (i : Instr) (en : Bool) (s : State),
    (∃ f, i = .rxFrame f) ∨ (∃ n payload, i = .txDatagram n payload) →
    ∃ t u, exec i s = .next t ∧ exec i { s with capEn := en } = .next u ∧
      u = { t with capEn := en, cap := u.cap }

/-! ### The port switch -/

/-- R137: `TP_ATTACH`. -/
def Obligations.AttachBindsTheSwitch : Prop :=
  (∀ (x : Bool) (s : State), s.ifOpen = false →
    exec (.tpAttach x) s = .next (replied (.err .interfaceClosed) s)) ∧
  (∀ (x : Bool) (s : State), s.ifOpen = true → Store.find 0x3A29 s.proto ≠ none →
    exec (.tpAttach x) s = .next (replied (.err .alreadyBound) s)) ∧
  ∀ (x : Bool) (s : State), s.ifOpen = true → Store.find 0x3A29 s.proto = none →
    ∃ pr, exec (.tpAttach x) s = .next
        { s with proto := pr, beSimplex := x, cmdOut := s.cmdOut ++ [.ok] } ∧
      ∀ n, Store.find n pr = if n = 0x3A29 then some .beSwitch else Store.find n s.proto

/-- R138: `TP_DETACH`; with the switch attached, in a state that meets the invariants of R32, every socket of
a best-effort port is closed, the port table is empty and 0x3A29 is unbound. -/
def Obligations.DetachClosesEveryBestEffortPort : Prop :=
  (∀ s : State, Store.find 0x3A29 s.proto ≠ some .beSwitch →
    exec .tpDetach s = .next (replied (.err .notAttached) s)) ∧
  ∀ s : State, Inv params s → Store.find 0x3A29 s.proto = some .beSwitch →
    ∃ pr sk, exec .tpDetach s = .next
        { s with proto := pr, beport := [], sock := sk, beSimplex := false,
                 cmdOut := s.cmdOut ++ [.ok] } ∧
      (∀ n, Store.find n pr = if n = 0x3A29 then none else Store.find n s.proto) ∧
      ∀ a, Store.find a sk = (Store.find a s.sock).map
        (fun k => if k.space = .beport then { k with closed := true, queue := [] } else k)

/-- R139, R136: `BE_DEMUX` parses, then delivers strictly by port; `S.be_simplex` plays no part. -/
def Obligations.BeDemuxDeliversByPort : Prop :=
  (∀ (u : Bytes) (s : State), u.length < 4 →
    exec (.beDemux u) s = .next (reported 0x07 (some u.length) s)) ∧
  ∀ (p0 p1 l0 l1 : Byte) (rest : Bytes) (s : State),
    ((num16 l0 l1 < 4 ∨ num16 l0 l1 > rest.length + 4) →
      exec (.beDemux (p0 :: p1 :: l0 :: l1 :: rest)) s =
        .next (reported 0x07 (some (rest.length + 4)) s)) ∧
    (4 ≤ num16 l0 l1 → num16 l0 l1 ≤ rest.length + 4 →
      ∃ t, exec (.beDemux (p0 :: p1 :: l0 :: l1 :: rest)) s = .next t ∧
        exec (.portDeliver .beport (BitVec.ofNat 16 (num16 p0 p1)) (rest.take (num16 l0 l1 - 4))) s =
          .next t)

/-- R140, R146: `PORT_DELIVER` delivers by exact match in its own space or reports the port; `REL_DELIVER`
does so in `RELPORT` and answers `Ok` whether or not the port is bound. -/
def Obligations.PortDeliverMatchesThePort : Prop :=
  ∀ (port : U16) (payload : Bytes) (s : State),
    (Store.find port.toNat s.beport = none →
      exec (.portDeliver .beport port payload) s = .next (reported 0x08 (some port.toNat) s)) ∧
    (∀ sid, Store.find port.toNat s.beport = some sid →
      exec (.portDeliver .beport port payload) s = .next (delivered sid payload s)) ∧
    (Store.find port.toNat s.relport = none →
      exec (.portDeliver .relport port payload) s = .next (reported 0x09 (some port.toNat) s) ∧
      exec (.relDeliver port payload) s =
        .next (replied .ok (reported 0x09 (some port.toNat) s))) ∧
    ∀ sid, Store.find port.toNat s.relport = some sid →
      exec (.portDeliver .relport port payload) s = .next (delivered sid payload s) ∧
      exec (.relDeliver port payload) s = .next (replied .ok (delivered sid payload s))

/-- R142: `PORT_FORCE_CLOSE` on an unbound port changes nothing; on a bound one it does what `CLOSE` of the
bound socket does, and answers `Ok` in every case. With space `PROTO` a model
refuses it: this model's decoder rejects every record of that form, whose bytes are the model's choice (DESIGN
CHOICE, log entry 3). -/
def Obligations.PortForceCloseClosesTheBoundSocket : Prop :=
  (∀ (sp : PortSpace) (port : U16) (s : State), portEntry sp port s = none →
    exec (.portForceClose sp port) s = .next (replied .ok s)) ∧
  (∀ (sp : PortSpace) (port : U16) (sid : SockId) (s : State), portEntry sp port s = some sid →
    Store.find sid s.sock ≠ none →
    ∃ t, exec (.portForceClose sp port) s = .next t ∧ exec (.close sid) s = .next t) ∧
  (∀ (sp : PortSpace) (port : U16) (s : State), ∃ t, exec (.portForceClose sp port) s = .next t ∧
    t.cmdOut = s.cmdOut ++ [.ok]) ∧
  ∀ rest : Bytes, decode (43 :: 0 :: rest) = .error .badSpace

/-- R149, port isolation, an inference of the spec ('derived: from rules R139, R140'). A received byte
leaves every socket as it is, or it completes a frame whose payload is pushed, alone and unchanged, to the
one socket that the registry of its space holds at its exact number or port; so does an accepted reliable
payload. The premise is item 4 of R32. -/
def Obligations.PayloadsReachOnlyTheBoundSocket : Prop :=
  (∀ (b : Byte) (s : State), SwitchPlace s → ∃ t, exec (.rxByte b) s = .next t ∧
    (t.sock = s.sock ∨
      ∃ (n : U16) (u : Bytes), decodeFrame s.buf = .ok (encap n u) ∧
        ((∃ sid, Store.find n.toNat s.proto = some (.raw sid) ∧
            t.sock = (delivered sid u s).sock) ∨
          (n = 0x3A29 ∧ Store.find n.toNat s.proto = some .beSwitch ∧
            ∃ port payload sid, beParse u = .ok (port, payload) ∧
              Store.find port.toNat s.beport = some sid ∧
              t.sock = (delivered sid payload s).sock)))) ∧
  ∀ (port : U16) (payload : Bytes) (s : State), ∃ t, exec (.relDeliver port payload) s = .next t ∧
    (t.sock = s.sock ∨
      ∃ sid, Store.find port.toNat s.relport = some sid ∧
        t.sock = (delivered sid payload s).sock)
end

