-- ==== Sys2Proof/Laws/State.lean ====
section
/-! SUPPORT. The state record's own lemmas: one per field per update, true by `rfl`. No later proof needs to
unfold one of these updates. -/

namespace Sys2Proof.Machine

variable (s : State)

/-! ### raise -/

@[simp] theorem raise_mode (c : Cause) (n : Option Nat) : (raise c n s).mode = s.mode := rfl
@[simp] theorem raise_buf (c : Cause) (n : Option Nat) : (raise c n s).buf = s.buf := rfl
@[simp] theorem raise_linkMtu (c : Cause) (n : Option Nat) : (raise c n s).linkMtu = s.linkMtu := rfl
@[simp] theorem raise_capEn (c : Cause) (n : Option Nat) : (raise c n s).capEn = s.capEn := rfl
@[simp] theorem raise_beSimplex (c : Cause) (n : Option Nat) : (raise c n s).beSimplex = s.beSimplex := rfl
@[simp] theorem raise_ifOpen (c : Cause) (n : Option Nat) : (raise c n s).ifOpen = s.ifOpen := rfl
@[simp] theorem raise_proto (c : Cause) (n : Option Nat) : (raise c n s).proto = s.proto := rfl
@[simp] theorem raise_beport (c : Cause) (n : Option Nat) : (raise c n s).beport = s.beport := rfl
@[simp] theorem raise_relport (c : Cause) (n : Option Nat) : (raise c n s).relport = s.relport := rfl
@[simp] theorem raise_sock (c : Cause) (n : Option Nat) : (raise c n s).sock = s.sock := rfl
@[simp] theorem raise_nextSid (c : Cause) (n : Option Nat) : (raise c n s).nextSid = s.nextSid := rfl
@[simp] theorem raise_txb (c : Cause) (n : Option Nat) : (raise c n s).txb = s.txb := rfl
@[simp] theorem raise_cap (c : Cause) (n : Option Nat) : (raise c n s).cap = s.cap := rfl
@[simp] theorem raise_diag (c : Cause) (n : Option Nat) : (raise c n s).diag = s.diag ++ [{ code := causeCode c, info := n }] := rfl
@[simp] theorem raise_bsClosed (c : Cause) (n : Option Nat) : (raise c n s).bsClosed = s.bsClosed := rfl
@[simp] theorem raise_cmdOut (c : Cause) (n : Option Nat) : (raise c n s).cmdOut = s.cmdOut := rfl
@[simp] theorem raise_rcvOut (c : Cause) (n : Option Nat) : (raise c n s).rcvOut = s.rcvOut := rfl
@[simp] theorem raise_rxbIn (c : Cause) (n : Option Nat) : (raise c n s).rxbIn = s.rxbIn := rfl
@[simp] theorem raise_cmdIn (c : Cause) (n : Option Nat) : (raise c n s).cmdIn = s.cmdIn := rfl
@[simp] theorem raise_benchIn (c : Cause) (n : Option Nat) : (raise c n s).benchIn = s.benchIn := rfl
@[simp] theorem raise_sched (c : Cause) (n : Option Nat) : (raise c n s).sched = s.sched := rfl

/-! ### answer -/

@[simp] theorem answer_mode (r : Result) : (answer r s).mode = s.mode := rfl
@[simp] theorem answer_buf (r : Result) : (answer r s).buf = s.buf := rfl
@[simp] theorem answer_linkMtu (r : Result) : (answer r s).linkMtu = s.linkMtu := rfl
@[simp] theorem answer_capEn (r : Result) : (answer r s).capEn = s.capEn := rfl
@[simp] theorem answer_beSimplex (r : Result) : (answer r s).beSimplex = s.beSimplex := rfl
@[simp] theorem answer_ifOpen (r : Result) : (answer r s).ifOpen = s.ifOpen := rfl
@[simp] theorem answer_proto (r : Result) : (answer r s).proto = s.proto := rfl
@[simp] theorem answer_beport (r : Result) : (answer r s).beport = s.beport := rfl
@[simp] theorem answer_relport (r : Result) : (answer r s).relport = s.relport := rfl
@[simp] theorem answer_sock (r : Result) : (answer r s).sock = s.sock := rfl
@[simp] theorem answer_nextSid (r : Result) : (answer r s).nextSid = s.nextSid := rfl
@[simp] theorem answer_txb (r : Result) : (answer r s).txb = s.txb := rfl
@[simp] theorem answer_cap (r : Result) : (answer r s).cap = s.cap := rfl
@[simp] theorem answer_diag (r : Result) : (answer r s).diag = s.diag := rfl
@[simp] theorem answer_bsClosed (r : Result) : (answer r s).bsClosed = s.bsClosed := rfl
@[simp] theorem answer_cmdOut (r : Result) : (answer r s).cmdOut = s.cmdOut ++ [r] := rfl
@[simp] theorem answer_rcvOut (r : Result) : (answer r s).rcvOut = s.rcvOut := rfl
@[simp] theorem answer_rxbIn (r : Result) : (answer r s).rxbIn = s.rxbIn := rfl
@[simp] theorem answer_cmdIn (r : Result) : (answer r s).cmdIn = s.cmdIn := rfl
@[simp] theorem answer_benchIn (r : Result) : (answer r s).benchIn = s.benchIn := rfl
@[simp] theorem answer_sched (r : Result) : (answer r s).sched = s.sched := rfl

/-! ### answerRcv -/

@[simp] theorem answerRcv_mode (r : Result) : (answerRcv r s).mode = s.mode := rfl
@[simp] theorem answerRcv_buf (r : Result) : (answerRcv r s).buf = s.buf := rfl
@[simp] theorem answerRcv_linkMtu (r : Result) : (answerRcv r s).linkMtu = s.linkMtu := rfl
@[simp] theorem answerRcv_capEn (r : Result) : (answerRcv r s).capEn = s.capEn := rfl
@[simp] theorem answerRcv_beSimplex (r : Result) : (answerRcv r s).beSimplex = s.beSimplex := rfl
@[simp] theorem answerRcv_ifOpen (r : Result) : (answerRcv r s).ifOpen = s.ifOpen := rfl
@[simp] theorem answerRcv_proto (r : Result) : (answerRcv r s).proto = s.proto := rfl
@[simp] theorem answerRcv_beport (r : Result) : (answerRcv r s).beport = s.beport := rfl
@[simp] theorem answerRcv_relport (r : Result) : (answerRcv r s).relport = s.relport := rfl
@[simp] theorem answerRcv_sock (r : Result) : (answerRcv r s).sock = s.sock := rfl
@[simp] theorem answerRcv_nextSid (r : Result) : (answerRcv r s).nextSid = s.nextSid := rfl
@[simp] theorem answerRcv_txb (r : Result) : (answerRcv r s).txb = s.txb := rfl
@[simp] theorem answerRcv_cap (r : Result) : (answerRcv r s).cap = s.cap := rfl
@[simp] theorem answerRcv_diag (r : Result) : (answerRcv r s).diag = s.diag := rfl
@[simp] theorem answerRcv_bsClosed (r : Result) : (answerRcv r s).bsClosed = s.bsClosed := rfl
@[simp] theorem answerRcv_cmdOut (r : Result) : (answerRcv r s).cmdOut = s.cmdOut := rfl
@[simp] theorem answerRcv_rcvOut (r : Result) : (answerRcv r s).rcvOut = s.rcvOut ++ [r] := rfl
@[simp] theorem answerRcv_rxbIn (r : Result) : (answerRcv r s).rxbIn = s.rxbIn := rfl
@[simp] theorem answerRcv_cmdIn (r : Result) : (answerRcv r s).cmdIn = s.cmdIn := rfl
@[simp] theorem answerRcv_benchIn (r : Result) : (answerRcv r s).benchIn = s.benchIn := rfl
@[simp] theorem answerRcv_sched (r : Result) : (answerRcv r s).sched = s.sched := rfl

/-! ### emitTxb -/

@[simp] theorem emitTxb_mode (w : Bytes) : (emitTxb w s).mode = s.mode := rfl
@[simp] theorem emitTxb_buf (w : Bytes) : (emitTxb w s).buf = s.buf := rfl
@[simp] theorem emitTxb_linkMtu (w : Bytes) : (emitTxb w s).linkMtu = s.linkMtu := rfl
@[simp] theorem emitTxb_capEn (w : Bytes) : (emitTxb w s).capEn = s.capEn := rfl
@[simp] theorem emitTxb_beSimplex (w : Bytes) : (emitTxb w s).beSimplex = s.beSimplex := rfl
@[simp] theorem emitTxb_ifOpen (w : Bytes) : (emitTxb w s).ifOpen = s.ifOpen := rfl
@[simp] theorem emitTxb_proto (w : Bytes) : (emitTxb w s).proto = s.proto := rfl
@[simp] theorem emitTxb_beport (w : Bytes) : (emitTxb w s).beport = s.beport := rfl
@[simp] theorem emitTxb_relport (w : Bytes) : (emitTxb w s).relport = s.relport := rfl
@[simp] theorem emitTxb_sock (w : Bytes) : (emitTxb w s).sock = s.sock := rfl
@[simp] theorem emitTxb_nextSid (w : Bytes) : (emitTxb w s).nextSid = s.nextSid := rfl
@[simp] theorem emitTxb_txb (w : Bytes) : (emitTxb w s).txb = s.txb ++ w := rfl
@[simp] theorem emitTxb_cap (w : Bytes) : (emitTxb w s).cap = s.cap := rfl
@[simp] theorem emitTxb_diag (w : Bytes) : (emitTxb w s).diag = s.diag := rfl
@[simp] theorem emitTxb_bsClosed (w : Bytes) : (emitTxb w s).bsClosed = s.bsClosed := rfl
@[simp] theorem emitTxb_cmdOut (w : Bytes) : (emitTxb w s).cmdOut = s.cmdOut := rfl
@[simp] theorem emitTxb_rcvOut (w : Bytes) : (emitTxb w s).rcvOut = s.rcvOut := rfl
@[simp] theorem emitTxb_rxbIn (w : Bytes) : (emitTxb w s).rxbIn = s.rxbIn := rfl
@[simp] theorem emitTxb_cmdIn (w : Bytes) : (emitTxb w s).cmdIn = s.cmdIn := rfl
@[simp] theorem emitTxb_benchIn (w : Bytes) : (emitTxb w s).benchIn = s.benchIn := rfl
@[simp] theorem emitTxb_sched (w : Bytes) : (emitTxb w s).sched = s.sched := rfl

/-! ### emitBsClose -/

@[simp] theorem emitBsClose_mode : (emitBsClose s).mode = s.mode := rfl
@[simp] theorem emitBsClose_buf : (emitBsClose s).buf = s.buf := rfl
@[simp] theorem emitBsClose_linkMtu : (emitBsClose s).linkMtu = s.linkMtu := rfl
@[simp] theorem emitBsClose_capEn : (emitBsClose s).capEn = s.capEn := rfl
@[simp] theorem emitBsClose_beSimplex : (emitBsClose s).beSimplex = s.beSimplex := rfl
@[simp] theorem emitBsClose_ifOpen : (emitBsClose s).ifOpen = s.ifOpen := rfl
@[simp] theorem emitBsClose_proto : (emitBsClose s).proto = s.proto := rfl
@[simp] theorem emitBsClose_beport : (emitBsClose s).beport = s.beport := rfl
@[simp] theorem emitBsClose_relport : (emitBsClose s).relport = s.relport := rfl
@[simp] theorem emitBsClose_sock : (emitBsClose s).sock = s.sock := rfl
@[simp] theorem emitBsClose_nextSid : (emitBsClose s).nextSid = s.nextSid := rfl
@[simp] theorem emitBsClose_txb : (emitBsClose s).txb = s.txb := rfl
@[simp] theorem emitBsClose_cap : (emitBsClose s).cap = s.cap := rfl
@[simp] theorem emitBsClose_diag : (emitBsClose s).diag = s.diag := rfl
@[simp] theorem emitBsClose_bsClosed : (emitBsClose s).bsClosed = s.bsClosed + 1 := rfl
@[simp] theorem emitBsClose_cmdOut : (emitBsClose s).cmdOut = s.cmdOut := rfl
@[simp] theorem emitBsClose_rcvOut : (emitBsClose s).rcvOut = s.rcvOut := rfl
@[simp] theorem emitBsClose_rxbIn : (emitBsClose s).rxbIn = s.rxbIn := rfl
@[simp] theorem emitBsClose_cmdIn : (emitBsClose s).cmdIn = s.cmdIn := rfl
@[simp] theorem emitBsClose_benchIn : (emitBsClose s).benchIn = s.benchIn := rfl
@[simp] theorem emitBsClose_sched : (emitBsClose s).sched = s.sched := rfl

/-! ### bufAppend -/

@[simp] theorem bufAppend_mode (b : Byte) : (bufAppend b s).mode = s.mode := rfl
@[simp] theorem bufAppend_buf (b : Byte) : (bufAppend b s).buf = s.buf ++ [b] := rfl
@[simp] theorem bufAppend_linkMtu (b : Byte) : (bufAppend b s).linkMtu = s.linkMtu := rfl
@[simp] theorem bufAppend_capEn (b : Byte) : (bufAppend b s).capEn = s.capEn := rfl
@[simp] theorem bufAppend_beSimplex (b : Byte) : (bufAppend b s).beSimplex = s.beSimplex := rfl
@[simp] theorem bufAppend_ifOpen (b : Byte) : (bufAppend b s).ifOpen = s.ifOpen := rfl
@[simp] theorem bufAppend_proto (b : Byte) : (bufAppend b s).proto = s.proto := rfl
@[simp] theorem bufAppend_beport (b : Byte) : (bufAppend b s).beport = s.beport := rfl
@[simp] theorem bufAppend_relport (b : Byte) : (bufAppend b s).relport = s.relport := rfl
@[simp] theorem bufAppend_sock (b : Byte) : (bufAppend b s).sock = s.sock := rfl
@[simp] theorem bufAppend_nextSid (b : Byte) : (bufAppend b s).nextSid = s.nextSid := rfl
@[simp] theorem bufAppend_txb (b : Byte) : (bufAppend b s).txb = s.txb := rfl
@[simp] theorem bufAppend_cap (b : Byte) : (bufAppend b s).cap = s.cap := rfl
@[simp] theorem bufAppend_diag (b : Byte) : (bufAppend b s).diag = s.diag := rfl
@[simp] theorem bufAppend_bsClosed (b : Byte) : (bufAppend b s).bsClosed = s.bsClosed := rfl
@[simp] theorem bufAppend_cmdOut (b : Byte) : (bufAppend b s).cmdOut = s.cmdOut := rfl
@[simp] theorem bufAppend_rcvOut (b : Byte) : (bufAppend b s).rcvOut = s.rcvOut := rfl
@[simp] theorem bufAppend_rxbIn (b : Byte) : (bufAppend b s).rxbIn = s.rxbIn := rfl
@[simp] theorem bufAppend_cmdIn (b : Byte) : (bufAppend b s).cmdIn = s.cmdIn := rfl
@[simp] theorem bufAppend_benchIn (b : Byte) : (bufAppend b s).benchIn = s.benchIn := rfl
@[simp] theorem bufAppend_sched (b : Byte) : (bufAppend b s).sched = s.sched := rfl

/-! ### pushQueue -/

@[simp] theorem pushQueue_mode (sid : SockId) (p : Bytes) : (pushQueue sid p s).mode = s.mode := rfl
@[simp] theorem pushQueue_buf (sid : SockId) (p : Bytes) : (pushQueue sid p s).buf = s.buf := rfl
@[simp] theorem pushQueue_linkMtu (sid : SockId) (p : Bytes) : (pushQueue sid p s).linkMtu = s.linkMtu := rfl
@[simp] theorem pushQueue_capEn (sid : SockId) (p : Bytes) : (pushQueue sid p s).capEn = s.capEn := rfl
@[simp] theorem pushQueue_beSimplex (sid : SockId) (p : Bytes) : (pushQueue sid p s).beSimplex = s.beSimplex := rfl
@[simp] theorem pushQueue_ifOpen (sid : SockId) (p : Bytes) : (pushQueue sid p s).ifOpen = s.ifOpen := rfl
@[simp] theorem pushQueue_proto (sid : SockId) (p : Bytes) : (pushQueue sid p s).proto = s.proto := rfl
@[simp] theorem pushQueue_beport (sid : SockId) (p : Bytes) : (pushQueue sid p s).beport = s.beport := rfl
@[simp] theorem pushQueue_relport (sid : SockId) (p : Bytes) : (pushQueue sid p s).relport = s.relport := rfl
@[simp] theorem pushQueue_sock (sid : SockId) (p : Bytes) : (pushQueue sid p s).sock = Store.upd sid (fun k => Socket.withQueue (k.queue ++ [p]) k) s.sock := rfl
@[simp] theorem pushQueue_nextSid (sid : SockId) (p : Bytes) : (pushQueue sid p s).nextSid = s.nextSid := rfl
@[simp] theorem pushQueue_txb (sid : SockId) (p : Bytes) : (pushQueue sid p s).txb = s.txb := rfl
@[simp] theorem pushQueue_cap (sid : SockId) (p : Bytes) : (pushQueue sid p s).cap = s.cap := rfl
@[simp] theorem pushQueue_diag (sid : SockId) (p : Bytes) : (pushQueue sid p s).diag = s.diag := rfl
@[simp] theorem pushQueue_bsClosed (sid : SockId) (p : Bytes) : (pushQueue sid p s).bsClosed = s.bsClosed := rfl
@[simp] theorem pushQueue_cmdOut (sid : SockId) (p : Bytes) : (pushQueue sid p s).cmdOut = s.cmdOut := rfl
@[simp] theorem pushQueue_rcvOut (sid : SockId) (p : Bytes) : (pushQueue sid p s).rcvOut = s.rcvOut := rfl
@[simp] theorem pushQueue_rxbIn (sid : SockId) (p : Bytes) : (pushQueue sid p s).rxbIn = s.rxbIn := rfl
@[simp] theorem pushQueue_cmdIn (sid : SockId) (p : Bytes) : (pushQueue sid p s).cmdIn = s.cmdIn := rfl
@[simp] theorem pushQueue_benchIn (sid : SockId) (p : Bytes) : (pushQueue sid p s).benchIn = s.benchIn := rfl
@[simp] theorem pushQueue_sched (sid : SockId) (p : Bytes) : (pushQueue sid p s).sched = s.sched := rfl

/-! ### popQueue -/

@[simp] theorem popQueue_mode (sid : SockId) (q : List Bytes) : (popQueue sid q s).mode = s.mode := rfl
@[simp] theorem popQueue_buf (sid : SockId) (q : List Bytes) : (popQueue sid q s).buf = s.buf := rfl
@[simp] theorem popQueue_linkMtu (sid : SockId) (q : List Bytes) : (popQueue sid q s).linkMtu = s.linkMtu := rfl
@[simp] theorem popQueue_capEn (sid : SockId) (q : List Bytes) : (popQueue sid q s).capEn = s.capEn := rfl
@[simp] theorem popQueue_beSimplex (sid : SockId) (q : List Bytes) : (popQueue sid q s).beSimplex = s.beSimplex := rfl
@[simp] theorem popQueue_ifOpen (sid : SockId) (q : List Bytes) : (popQueue sid q s).ifOpen = s.ifOpen := rfl
@[simp] theorem popQueue_proto (sid : SockId) (q : List Bytes) : (popQueue sid q s).proto = s.proto := rfl
@[simp] theorem popQueue_beport (sid : SockId) (q : List Bytes) : (popQueue sid q s).beport = s.beport := rfl
@[simp] theorem popQueue_relport (sid : SockId) (q : List Bytes) : (popQueue sid q s).relport = s.relport := rfl
@[simp] theorem popQueue_sock (sid : SockId) (q : List Bytes) : (popQueue sid q s).sock = Store.upd sid (Socket.withQueue q) s.sock := rfl
@[simp] theorem popQueue_nextSid (sid : SockId) (q : List Bytes) : (popQueue sid q s).nextSid = s.nextSid := rfl
@[simp] theorem popQueue_txb (sid : SockId) (q : List Bytes) : (popQueue sid q s).txb = s.txb := rfl
@[simp] theorem popQueue_cap (sid : SockId) (q : List Bytes) : (popQueue sid q s).cap = s.cap := rfl
@[simp] theorem popQueue_diag (sid : SockId) (q : List Bytes) : (popQueue sid q s).diag = s.diag := rfl
@[simp] theorem popQueue_bsClosed (sid : SockId) (q : List Bytes) : (popQueue sid q s).bsClosed = s.bsClosed := rfl
@[simp] theorem popQueue_cmdOut (sid : SockId) (q : List Bytes) : (popQueue sid q s).cmdOut = s.cmdOut := rfl
@[simp] theorem popQueue_rcvOut (sid : SockId) (q : List Bytes) : (popQueue sid q s).rcvOut = s.rcvOut := rfl
@[simp] theorem popQueue_rxbIn (sid : SockId) (q : List Bytes) : (popQueue sid q s).rxbIn = s.rxbIn := rfl
@[simp] theorem popQueue_cmdIn (sid : SockId) (q : List Bytes) : (popQueue sid q s).cmdIn = s.cmdIn := rfl
@[simp] theorem popQueue_benchIn (sid : SockId) (q : List Bytes) : (popQueue sid q s).benchIn = s.benchIn := rfl
@[simp] theorem popQueue_sched (sid : SockId) (q : List Bytes) : (popQueue sid q s).sched = s.sched := rfl

/-! ### syncFlagCase -/

@[simp] theorem syncFlagCase_mode : (syncFlagCase s).mode = .collect := rfl
@[simp] theorem syncFlagCase_buf : (syncFlagCase s).buf = s.buf := rfl
@[simp] theorem syncFlagCase_linkMtu : (syncFlagCase s).linkMtu = s.linkMtu := rfl
@[simp] theorem syncFlagCase_capEn : (syncFlagCase s).capEn = s.capEn := rfl
@[simp] theorem syncFlagCase_beSimplex : (syncFlagCase s).beSimplex = s.beSimplex := rfl
@[simp] theorem syncFlagCase_ifOpen : (syncFlagCase s).ifOpen = s.ifOpen := rfl
@[simp] theorem syncFlagCase_proto : (syncFlagCase s).proto = s.proto := rfl
@[simp] theorem syncFlagCase_beport : (syncFlagCase s).beport = s.beport := rfl
@[simp] theorem syncFlagCase_relport : (syncFlagCase s).relport = s.relport := rfl
@[simp] theorem syncFlagCase_sock : (syncFlagCase s).sock = s.sock := rfl
@[simp] theorem syncFlagCase_nextSid : (syncFlagCase s).nextSid = s.nextSid := rfl
@[simp] theorem syncFlagCase_txb : (syncFlagCase s).txb = s.txb := rfl
@[simp] theorem syncFlagCase_cap : (syncFlagCase s).cap = s.cap := rfl
@[simp] theorem syncFlagCase_diag : (syncFlagCase s).diag = s.diag := rfl
@[simp] theorem syncFlagCase_bsClosed : (syncFlagCase s).bsClosed = s.bsClosed := rfl
@[simp] theorem syncFlagCase_cmdOut : (syncFlagCase s).cmdOut = s.cmdOut := rfl
@[simp] theorem syncFlagCase_rcvOut : (syncFlagCase s).rcvOut = s.rcvOut := rfl
@[simp] theorem syncFlagCase_rxbIn : (syncFlagCase s).rxbIn = s.rxbIn := rfl
@[simp] theorem syncFlagCase_cmdIn : (syncFlagCase s).cmdIn = s.cmdIn := rfl
@[simp] theorem syncFlagCase_benchIn : (syncFlagCase s).benchIn = s.benchIn := rfl
@[simp] theorem syncFlagCase_sched : (syncFlagCase s).sched = s.sched := rfl

/-! ### resetOp -/

@[simp] theorem resetOp_mode (P : Params) : (resetOp P s).mode = .waitSync := rfl
@[simp] theorem resetOp_buf (P : Params) : (resetOp P s).buf = [] := rfl
@[simp] theorem resetOp_linkMtu (P : Params) : (resetOp P s).linkMtu = P.linkMtuReset := rfl
@[simp] theorem resetOp_capEn (P : Params) : (resetOp P s).capEn = false := rfl
@[simp] theorem resetOp_beSimplex (P : Params) : (resetOp P s).beSimplex = false := rfl
@[simp] theorem resetOp_ifOpen (P : Params) : (resetOp P s).ifOpen = true := rfl
@[simp] theorem resetOp_proto (P : Params) : (resetOp P s).proto = [] := rfl
@[simp] theorem resetOp_beport (P : Params) : (resetOp P s).beport = [] := rfl
@[simp] theorem resetOp_relport (P : Params) : (resetOp P s).relport = [] := rfl
@[simp] theorem resetOp_sock (P : Params) : (resetOp P s).sock = [] := rfl
@[simp] theorem resetOp_nextSid (P : Params) : (resetOp P s).nextSid = 0 := rfl
@[simp] theorem resetOp_txb (P : Params) : (resetOp P s).txb = s.txb := rfl
@[simp] theorem resetOp_cap (P : Params) : (resetOp P s).cap = s.cap := rfl
@[simp] theorem resetOp_diag (P : Params) : (resetOp P s).diag = s.diag := rfl
@[simp] theorem resetOp_bsClosed (P : Params) : (resetOp P s).bsClosed = s.bsClosed := rfl
@[simp] theorem resetOp_cmdOut (P : Params) : (resetOp P s).cmdOut = s.cmdOut := rfl
@[simp] theorem resetOp_rcvOut (P : Params) : (resetOp P s).rcvOut = s.rcvOut := rfl
@[simp] theorem resetOp_rxbIn (P : Params) : (resetOp P s).rxbIn = s.rxbIn := rfl
@[simp] theorem resetOp_cmdIn (P : Params) : (resetOp P s).cmdIn = s.cmdIn := rfl
@[simp] theorem resetOp_benchIn (P : Params) : (resetOp P s).benchIn = s.benchIn := rfl
@[simp] theorem resetOp_sched (P : Params) : (resetOp P s).sched = s.sched := rfl

/-! ### nextTurn -/

@[simp] theorem nextTurn_mode : (nextTurn s).mode = s.mode := rfl
@[simp] theorem nextTurn_buf : (nextTurn s).buf = s.buf := rfl
@[simp] theorem nextTurn_linkMtu : (nextTurn s).linkMtu = s.linkMtu := rfl
@[simp] theorem nextTurn_capEn : (nextTurn s).capEn = s.capEn := rfl
@[simp] theorem nextTurn_beSimplex : (nextTurn s).beSimplex = s.beSimplex := rfl
@[simp] theorem nextTurn_ifOpen : (nextTurn s).ifOpen = s.ifOpen := rfl
@[simp] theorem nextTurn_proto : (nextTurn s).proto = s.proto := rfl
@[simp] theorem nextTurn_beport : (nextTurn s).beport = s.beport := rfl
@[simp] theorem nextTurn_relport : (nextTurn s).relport = s.relport := rfl
@[simp] theorem nextTurn_sock : (nextTurn s).sock = s.sock := rfl
@[simp] theorem nextTurn_nextSid : (nextTurn s).nextSid = s.nextSid := rfl
@[simp] theorem nextTurn_txb : (nextTurn s).txb = s.txb := rfl
@[simp] theorem nextTurn_cap : (nextTurn s).cap = s.cap := rfl
@[simp] theorem nextTurn_diag : (nextTurn s).diag = s.diag := rfl
@[simp] theorem nextTurn_bsClosed : (nextTurn s).bsClosed = s.bsClosed := rfl
@[simp] theorem nextTurn_cmdOut : (nextTurn s).cmdOut = s.cmdOut := rfl
@[simp] theorem nextTurn_rcvOut : (nextTurn s).rcvOut = s.rcvOut := rfl
@[simp] theorem nextTurn_rxbIn : (nextTurn s).rxbIn = s.rxbIn := rfl
@[simp] theorem nextTurn_cmdIn : (nextTurn s).cmdIn = s.cmdIn := rfl
@[simp] theorem nextTurn_benchIn : (nextTurn s).benchIn = s.benchIn := rfl
@[simp] theorem nextTurn_sched : (nextTurn s).sched = s.sched.drop 1 := rfl

/-! ### takeRxb -/

@[simp] theorem takeRxb_mode : (takeRxb s).mode = s.mode := rfl
@[simp] theorem takeRxb_buf : (takeRxb s).buf = s.buf := rfl
@[simp] theorem takeRxb_linkMtu : (takeRxb s).linkMtu = s.linkMtu := rfl
@[simp] theorem takeRxb_capEn : (takeRxb s).capEn = s.capEn := rfl
@[simp] theorem takeRxb_beSimplex : (takeRxb s).beSimplex = s.beSimplex := rfl
@[simp] theorem takeRxb_ifOpen : (takeRxb s).ifOpen = s.ifOpen := rfl
@[simp] theorem takeRxb_proto : (takeRxb s).proto = s.proto := rfl
@[simp] theorem takeRxb_beport : (takeRxb s).beport = s.beport := rfl
@[simp] theorem takeRxb_relport : (takeRxb s).relport = s.relport := rfl
@[simp] theorem takeRxb_sock : (takeRxb s).sock = s.sock := rfl
@[simp] theorem takeRxb_nextSid : (takeRxb s).nextSid = s.nextSid := rfl
@[simp] theorem takeRxb_txb : (takeRxb s).txb = s.txb := rfl
@[simp] theorem takeRxb_cap : (takeRxb s).cap = s.cap := rfl
@[simp] theorem takeRxb_diag : (takeRxb s).diag = s.diag := rfl
@[simp] theorem takeRxb_bsClosed : (takeRxb s).bsClosed = s.bsClosed := rfl
@[simp] theorem takeRxb_cmdOut : (takeRxb s).cmdOut = s.cmdOut := rfl
@[simp] theorem takeRxb_rcvOut : (takeRxb s).rcvOut = s.rcvOut := rfl
@[simp] theorem takeRxb_rxbIn : (takeRxb s).rxbIn = s.rxbIn.drop 1 := rfl
@[simp] theorem takeRxb_cmdIn : (takeRxb s).cmdIn = s.cmdIn := rfl
@[simp] theorem takeRxb_benchIn : (takeRxb s).benchIn = s.benchIn := rfl
@[simp] theorem takeRxb_sched : (takeRxb s).sched = s.sched.drop 1 := rfl

/-! ### takeCmd -/

@[simp] theorem takeCmd_mode : (takeCmd s).mode = s.mode := rfl
@[simp] theorem takeCmd_buf : (takeCmd s).buf = s.buf := rfl
@[simp] theorem takeCmd_linkMtu : (takeCmd s).linkMtu = s.linkMtu := rfl
@[simp] theorem takeCmd_capEn : (takeCmd s).capEn = s.capEn := rfl
@[simp] theorem takeCmd_beSimplex : (takeCmd s).beSimplex = s.beSimplex := rfl
@[simp] theorem takeCmd_ifOpen : (takeCmd s).ifOpen = s.ifOpen := rfl
@[simp] theorem takeCmd_proto : (takeCmd s).proto = s.proto := rfl
@[simp] theorem takeCmd_beport : (takeCmd s).beport = s.beport := rfl
@[simp] theorem takeCmd_relport : (takeCmd s).relport = s.relport := rfl
@[simp] theorem takeCmd_sock : (takeCmd s).sock = s.sock := rfl
@[simp] theorem takeCmd_nextSid : (takeCmd s).nextSid = s.nextSid := rfl
@[simp] theorem takeCmd_txb : (takeCmd s).txb = s.txb := rfl
@[simp] theorem takeCmd_cap : (takeCmd s).cap = s.cap := rfl
@[simp] theorem takeCmd_diag : (takeCmd s).diag = s.diag := rfl
@[simp] theorem takeCmd_bsClosed : (takeCmd s).bsClosed = s.bsClosed := rfl
@[simp] theorem takeCmd_cmdOut : (takeCmd s).cmdOut = s.cmdOut := rfl
@[simp] theorem takeCmd_rcvOut : (takeCmd s).rcvOut = s.rcvOut := rfl
@[simp] theorem takeCmd_rxbIn : (takeCmd s).rxbIn = s.rxbIn := rfl
@[simp] theorem takeCmd_cmdIn : (takeCmd s).cmdIn = s.cmdIn.drop 1 := rfl
@[simp] theorem takeCmd_benchIn : (takeCmd s).benchIn = s.benchIn := rfl
@[simp] theorem takeCmd_sched : (takeCmd s).sched = s.sched.drop 1 := rfl

/-! ### takeBench -/

@[simp] theorem takeBench_mode : (takeBench s).mode = s.mode := rfl
@[simp] theorem takeBench_buf : (takeBench s).buf = s.buf := rfl
@[simp] theorem takeBench_linkMtu : (takeBench s).linkMtu = s.linkMtu := rfl
@[simp] theorem takeBench_capEn : (takeBench s).capEn = s.capEn := rfl
@[simp] theorem takeBench_beSimplex : (takeBench s).beSimplex = s.beSimplex := rfl
@[simp] theorem takeBench_ifOpen : (takeBench s).ifOpen = s.ifOpen := rfl
@[simp] theorem takeBench_proto : (takeBench s).proto = s.proto := rfl
@[simp] theorem takeBench_beport : (takeBench s).beport = s.beport := rfl
@[simp] theorem takeBench_relport : (takeBench s).relport = s.relport := rfl
@[simp] theorem takeBench_sock : (takeBench s).sock = s.sock := rfl
@[simp] theorem takeBench_nextSid : (takeBench s).nextSid = s.nextSid := rfl
@[simp] theorem takeBench_txb : (takeBench s).txb = s.txb := rfl
@[simp] theorem takeBench_cap : (takeBench s).cap = s.cap := rfl
@[simp] theorem takeBench_diag : (takeBench s).diag = s.diag := rfl
@[simp] theorem takeBench_bsClosed : (takeBench s).bsClosed = s.bsClosed := rfl
@[simp] theorem takeBench_cmdOut : (takeBench s).cmdOut = s.cmdOut := rfl
@[simp] theorem takeBench_rcvOut : (takeBench s).rcvOut = s.rcvOut := rfl
@[simp] theorem takeBench_rxbIn : (takeBench s).rxbIn = s.rxbIn := rfl
@[simp] theorem takeBench_cmdIn : (takeBench s).cmdIn = s.cmdIn := rfl
@[simp] theorem takeBench_benchIn : (takeBench s).benchIn = s.benchIn.drop 1 := rfl
@[simp] theorem takeBench_sched : (takeBench s).sched = s.sched.drop 1 := rfl

/-! ### offerBench -/

@[simp] theorem offerBench_mode (r : Bytes) : (offerBench r s).mode = s.mode := rfl
@[simp] theorem offerBench_buf (r : Bytes) : (offerBench r s).buf = s.buf := rfl
@[simp] theorem offerBench_linkMtu (r : Bytes) : (offerBench r s).linkMtu = s.linkMtu := rfl
@[simp] theorem offerBench_capEn (r : Bytes) : (offerBench r s).capEn = s.capEn := rfl
@[simp] theorem offerBench_beSimplex (r : Bytes) : (offerBench r s).beSimplex = s.beSimplex := rfl
@[simp] theorem offerBench_ifOpen (r : Bytes) : (offerBench r s).ifOpen = s.ifOpen := rfl
@[simp] theorem offerBench_proto (r : Bytes) : (offerBench r s).proto = s.proto := rfl
@[simp] theorem offerBench_beport (r : Bytes) : (offerBench r s).beport = s.beport := rfl
@[simp] theorem offerBench_relport (r : Bytes) : (offerBench r s).relport = s.relport := rfl
@[simp] theorem offerBench_sock (r : Bytes) : (offerBench r s).sock = s.sock := rfl
@[simp] theorem offerBench_nextSid (r : Bytes) : (offerBench r s).nextSid = s.nextSid := rfl
@[simp] theorem offerBench_txb (r : Bytes) : (offerBench r s).txb = s.txb := rfl
@[simp] theorem offerBench_cap (r : Bytes) : (offerBench r s).cap = s.cap := rfl
@[simp] theorem offerBench_diag (r : Bytes) : (offerBench r s).diag = s.diag := rfl
@[simp] theorem offerBench_bsClosed (r : Bytes) : (offerBench r s).bsClosed = s.bsClosed := rfl
@[simp] theorem offerBench_cmdOut (r : Bytes) : (offerBench r s).cmdOut = s.cmdOut := rfl
@[simp] theorem offerBench_rcvOut (r : Bytes) : (offerBench r s).rcvOut = s.rcvOut := rfl
@[simp] theorem offerBench_rxbIn (r : Bytes) : (offerBench r s).rxbIn = s.rxbIn := rfl
@[simp] theorem offerBench_cmdIn (r : Bytes) : (offerBench r s).cmdIn = s.cmdIn := rfl
@[simp] theorem offerBench_benchIn (r : Bytes) : (offerBench r s).benchIn = r :: s.benchIn := rfl
@[simp] theorem offerBench_sched (r : Bytes) : (offerBench r s).sched = .bench :: s.sched := rfl

end Sys2Proof.Machine
end

