-- ==== Sys2Proof/Laws/Store.lean ====
section
/-! SUPPORT. The laws of the partial maps: a read after a write, and that every operation keeps the
canonical form. -/

namespace Sys2Proof.Machine

variable {α : Type}

@[simp] theorem Store.find_nil (k : Nat) : Store.find k ([] : Store α) = none := rfl

@[simp] theorem Store.has_nil (k : Nat) : Store.has k ([] : Store α) = false := rfl

@[simp] theorem Store.find_set_same (k : Nat) (v : α) (t : Store α) :
    Store.find k (Store.set k v t) = some v := by
  induction t with
  | nil => simp [Store.set, Store.find]
  | cons p t ih =>
    obtain ⟨k', v'⟩ := p
    by_cases h1 : k < k'
    · simp [Store.set, Store.find, h1]
    · by_cases h2 : k = k'
      · simp [Store.set, Store.find, h2]
      · simp [Store.set, Store.find, h1, h2, Ne.symm h2, ih]

theorem Store.find_set_ne {a k : Nat} (h : a ≠ k) (v : α) (t : Store α) :
    Store.find a (Store.set k v t) = Store.find a t := by
  induction t with
  | nil => simp [Store.set, Store.find, Ne.symm h]
  | cons p t ih =>
    obtain ⟨k', v'⟩ := p
    by_cases h1 : k < k'
    · simp [Store.set, Store.find, h1, Ne.symm h]
    · by_cases h2 : k = k'
      · subst h2; simp [Store.set, Store.find, Ne.symm h]
      · simp [Store.set, Store.find, h1, h2, ih]

theorem Store.find_set (a k : Nat) (v : α) (t : Store α) :
    Store.find a (Store.set k v t) = if a = k then some v else Store.find a t := by
  split
  · next h => subst h; exact Store.find_set_same _ _ _
  · next h => exact Store.find_set_ne h _ _

theorem Store.find_del (a k : Nat) (t : Store α) :
    Store.find a (Store.del k t) = if a = k then none else Store.find a t := by
  induction t with
  | nil => simp [Store.del]
  | cons p t ih =>
    obtain ⟨k', v'⟩ := p
    unfold Store.del at ih ⊢
    by_cases h1 : k' = k
    · by_cases h2 : a = k
      · simp [h1, h2] at ih ⊢; exact ih
      · simp [Store.find, h1, h2, Ne.symm h2] at ih ⊢; exact ih
    · by_cases h2 : k' = a
      · subst h2; simp [Store.find, h1]
      · simp [Store.find, h1, h2, ih]

@[simp] theorem Store.find_del_same (k : Nat) (t : Store α) :
    Store.find k (Store.del k t) = none := by simp [Store.find_del]

theorem Store.find_del_ne {a k : Nat} (h : a ≠ k) (t : Store α) :
    Store.find a (Store.del k t) = Store.find a t := by simp [Store.find_del, h]

theorem Store.find_upd (a k : Nat) (f : α → α) (t : Store α) :
    Store.find a (Store.upd k f t) =
      if a = k then (Store.find a t).map f else Store.find a t := by
  induction t with
  | nil => simp [Store.upd]
  | cons p t ih =>
    obtain ⟨k', v'⟩ := p
    by_cases h1 : k' = k
    · subst h1
      by_cases h2 : a = k'
      · simp [Store.upd, Store.find, h2]
      · simp [Store.upd, Store.find, h2, Ne.symm h2]
    · by_cases h2 : k' = a
      · subst h2; simp [Store.upd, Store.find, h1]
      · simp [Store.upd, Store.find, h1, h2, ih]

theorem Store.find_upd_same (k : Nat) (f : α → α) (t : Store α) :
    Store.find k (Store.upd k f t) = (Store.find k t).map f := by simp [Store.find_upd]

theorem Store.find_upd_ne {a k : Nat} (h : a ≠ k) (f : α → α) (t : Store α) :
    Store.find a (Store.upd k f t) = Store.find a t := by simp [Store.find_upd, h]

theorem Store.has_iff (k : Nat) (t : Store α) :
    Store.has k t = true ↔ ∃ v, Store.find k t = some v := by
  simp [Store.has, Option.isSome_iff_exists]

theorem Store.has_false_iff (k : Nat) (t : Store α) :
    Store.has k t = false ↔ Store.find k t = none := by
  simp [Store.has]

theorem Store.mem_keys (k : Nat) (t : Store α) : k ∈ Store.keys t ↔ Store.has k t = true := by
  induction t with
  | nil => simp [Store.keys]
  | cons p t ih =>
    obtain ⟨k', v'⟩ := p
    simp only [Store.keys, Store.has, Store.find, List.map_cons, List.mem_cons] at ih ⊢
    by_cases h : k' = k
    · simp [h]
    · simp [h, Ne.symm h, ih]

theorem Store.find_mem {k : Nat} {v : α} {t : Store α} (h : Store.find k t = some v) :
    (k, v) ∈ t := by
  induction t with
  | nil => simp at h
  | cons p t ih =>
    obtain ⟨k', v'⟩ := p
    by_cases h1 : k' = k
    · simp [Store.find, h1] at h; simp [h1, h]
    · simp [Store.find, h1] at h; exact List.mem_cons_of_mem _ (ih h)

/-- Every key of a canonical store behind the head is above the head's. -/
theorem Store.wf_cons (k : Nat) (v : α) (t : Store α) :
    Store.wf ((k, v) :: t) = true ↔ (∀ p ∈ t, k < p.1) ∧ Store.wf t = true := by
  simp [Store.wf, List.all_eq_true]

theorem Store.mem_set {k : Nat} {v : α} {t : Store α} {p : Nat × α} (h : p ∈ Store.set k v t) :
    p = (k, v) ∨ p ∈ t := by
  induction t with
  | nil => simpa [Store.set] using h
  | cons q t ih =>
    obtain ⟨k', v'⟩ := q
    by_cases h1 : k < k'
    · simp [Store.set, h1] at h; simp; tauto
    · by_cases h2 : k = k'
      · simp [Store.set, h2] at h; simp [h2]; tauto
      · simp only [Store.set, h1, h2, if_false, List.mem_cons] at h
        rcases h with h | h
        · exact Or.inr (by simp [h])
        · rcases ih h with h | h
          · exact Or.inl h
          · exact Or.inr (List.mem_cons_of_mem _ h)

theorem Store.wf_set (k : Nat) (v : α) {t : Store α} (h : Store.wf t = true) :
    Store.wf (Store.set k v t) = true := by
  induction t with
  | nil => simp [Store.set, Store.wf]
  | cons q t ih =>
    obtain ⟨k', v'⟩ := q
    have hc := (Store.wf_cons k' v' t).1 h
    by_cases h1 : k < k'
    · simp only [Store.set, h1, if_true]
      refine (Store.wf_cons _ _ _).2 ⟨?_, h⟩
      intro p hp
      rcases List.mem_cons.1 hp with hp | hp
      · simpa [hp] using h1
      · exact Nat.lt_trans h1 (hc.1 p hp)
    · by_cases h2 : k = k'
      · subst h2
        simp only [Store.set, Nat.lt_irrefl, if_false, if_true]
        exact (Store.wf_cons _ _ _).2 hc
      · simp only [Store.set, h1, h2, if_false]
        refine (Store.wf_cons _ _ _).2 ⟨?_, ih hc.2⟩
        intro p hp
        rcases Store.mem_set hp with hp | hp
        · simp only [hp]; omega
        · exact hc.1 p hp

theorem Store.wf_del (k : Nat) {t : Store α} (h : Store.wf t = true) :
    Store.wf (Store.del k t) = true := by
  induction t with
  | nil => simp [Store.del, Store.wf]
  | cons q t ih =>
    obtain ⟨k', v'⟩ := q
    have hc := (Store.wf_cons k' v' t).1 h
    by_cases h1 : k' = k
    · have := ih hc.2
      simpa [Store.del, h1] using this
    · have hd : Store.del k ((k', v') :: t) = (k', v') :: Store.del k t := by
        simp [Store.del, h1]
      rw [hd]
      refine (Store.wf_cons _ _ _).2 ⟨fun p hp => hc.1 p ?_, ih hc.2⟩
      exact (List.mem_filter.1 hp).1

theorem Store.upd_keys (k : Nat) (f : α → α) (t : Store α) :
    Store.keys (Store.upd k f t) = Store.keys t := by
  induction t with
  | nil => rfl
  | cons q t ih =>
    obtain ⟨k', v'⟩ := q
    by_cases h1 : k' = k
    · simp [Store.upd, Store.keys, h1]
    · simp only [Store.upd, h1, if_false, Store.keys, List.map_cons] at ih ⊢
      rw [ih]

theorem Store.wf_upd (k : Nat) (f : α → α) {t : Store α} (h : Store.wf t = true) :
    Store.wf (Store.upd k f t) = true := by
  induction t with
  | nil => rfl
  | cons q t ih =>
    obtain ⟨k', v'⟩ := q
    have hc := (Store.wf_cons k' v' t).1 h
    by_cases h1 : k' = k
    · simp only [Store.upd, h1, if_true]
      subst h1
      exact (Store.wf_cons _ _ _).2 hc
    · simp only [Store.upd, h1, if_false]
      refine (Store.wf_cons _ _ _).2 ⟨?_, ih hc.2⟩
      intro p hp
      have : p.1 ∈ Store.keys (Store.upd k f t) := List.mem_map_of_mem hp
      rw [Store.upd_keys] at this
      obtain ⟨q, hq, hpq⟩ := List.mem_map.1 this
      exact hpq ▸ hc.1 q hq

theorem Store.keys16_iff (t : Store α) : Store.keys16 t = true ↔ ∀ p ∈ t, p.1 < 65536 := by
  simp [Store.keys16, List.all_eq_true]

theorem Store.keys16_set {k : Nat} (hk : k < 65536) (v : α) {t : Store α}
    (h : Store.keys16 t = true) : Store.keys16 (Store.set k v t) = true := by
  rw [Store.keys16_iff] at h ⊢
  intro p hp
  rcases Store.mem_set hp with hp | hp
  · simpa [hp] using hk
  · exact h p hp

theorem Store.keys16_del (k : Nat) {t : Store α} (h : Store.keys16 t = true) :
    Store.keys16 (Store.del k t) = true := by
  rw [Store.keys16_iff] at h ⊢
  exact fun p hp => h p (List.mem_filter.1 hp).1

theorem Store.find_none_of_lt {k : Nat} {t : Store α} (h : ∀ p ∈ t, k < p.1) :
    Store.find k t = none := by
  induction t with
  | nil => rfl
  | cons q t ih =>
    obtain ⟨k', v'⟩ := q
    have h1 : k < k' := h (k', v') (by simp)
    rw [Store.find, if_neg (by omega)]
    exact ih fun p hp => h p (List.mem_cons_of_mem _ hp)

/-- Canonical stores that read alike are equal data. -/
theorem Store.ext_find {t u : Store α} (ht : Store.wf t = true) (hu : Store.wf u = true)
    (h : ∀ k, Store.find k t = Store.find k u) : t = u := by
  induction t generalizing u with
  | nil =>
    cases u with
    | nil => rfl
    | cons q u => have := h q.1; simp [Store.find] at this
  | cons p t ih =>
    obtain ⟨k, v⟩ := p
    have hp := (Store.wf_cons _ _ _).1 ht
    cases u with
    | nil => have := h k; simp [Store.find] at this
    | cons q u =>
      obtain ⟨k', v'⟩ := q
      have hq := (Store.wf_cons _ _ _).1 hu
      have hkk : k = k' := by
        rcases Nat.lt_trichotomy k k' with hlt | heq | hlt
        · have h1 := h k
          rw [Store.find, if_pos rfl, Store.find, if_neg (by omega),
            Store.find_none_of_lt (fun p hp => Nat.lt_trans hlt (hq.1 p hp))] at h1
          cases h1
        · exact heq
        · have h1 := h k'
          rw [Store.find, if_neg (by omega), Store.find, if_pos rfl,
            Store.find_none_of_lt (fun p h => Nat.lt_trans hlt (hp.1 p h))] at h1
          cases h1
      subst hkk
      have hv : v = v' := by simpa [Store.find] using h k
      subst hv
      congr 1
      refine ih hp.2 hq.2 fun a => ?_
      by_cases ha : k = a
      · subst ha
        rw [Store.find_none_of_lt hp.1, Store.find_none_of_lt hq.1]
      · simpa [Store.find, ha] using h a

end Sys2Proof.Machine
end

