-- ==== Sys2Proof/Laws/Ops.lean ====
section
/-! SUPPORT. What each shared operation can do, said once: the conditional updates field by field, one case
lemma for each operation that branches, and that every operation keeps the stores canonical. -/

namespace Sys2Proof.Machine

variable (s : State)

/-! ### capture (R126) -/

@[simp] theorem capture_mode (d : Byte) (g : Bytes) : (capture d g s).mode = s.mode := by
  unfold capture; split <;> rfl
@[simp] theorem capture_buf (d : Byte) (g : Bytes) : (capture d g s).buf = s.buf := by
  unfold capture; split <;> rfl
@[simp] theorem capture_linkMtu (d : Byte) (g : Bytes) : (capture d g s).linkMtu = s.linkMtu := by
  unfold capture; split <;> rfl
@[simp] theorem capture_capEn (d : Byte) (g : Bytes) : (capture d g s).capEn = s.capEn := by
  unfold capture; split <;> rfl
@[simp] theorem capture_beSimplex (d : Byte) (g : Bytes) : (capture d g s).beSimplex = s.beSimplex := by
  unfold capture; split <;> rfl
@[simp] theorem capture_ifOpen (d : Byte) (g : Bytes) : (capture d g s).ifOpen = s.ifOpen := by
  unfold capture; split <;> rfl
@[simp] theorem capture_proto (d : Byte) (g : Bytes) : (capture d g s).proto = s.proto := by
  unfold capture; split <;> rfl
@[simp] theorem capture_beport (d : Byte) (g : Bytes) : (capture d g s).beport = s.beport := by
  unfold capture; split <;> rfl
@[simp] theorem capture_relport (d : Byte) (g : Bytes) : (capture d g s).relport = s.relport := by
  unfold capture; split <;> rfl
@[simp] theorem capture_sock (d : Byte) (g : Bytes) : (capture d g s).sock = s.sock := by
  unfold capture; split <;> rfl
@[simp] theorem capture_nextSid (d : Byte) (g : Bytes) : (capture d g s).nextSid = s.nextSid := by
  unfold capture; split <;> rfl
@[simp] theorem capture_txb (d : Byte) (g : Bytes) : (capture d g s).txb = s.txb := by
  unfold capture; split <;> rfl
theorem capture_cap (d : Byte) (g : Bytes) :
    (capture d g s).cap = if s.capEn then s.cap ++ [d :: g] else s.cap := by
  unfold capture; split <;> rfl
@[simp] theorem capture_diag (d : Byte) (g : Bytes) : (capture d g s).diag = s.diag := by
  unfold capture; split <;> rfl
@[simp] theorem capture_bsClosed (d : Byte) (g : Bytes) : (capture d g s).bsClosed = s.bsClosed := by
  unfold capture; split <;> rfl
@[simp] theorem capture_cmdOut (d : Byte) (g : Bytes) : (capture d g s).cmdOut = s.cmdOut := by
  unfold capture; split <;> rfl
@[simp] theorem capture_rcvOut (d : Byte) (g : Bytes) : (capture d g s).rcvOut = s.rcvOut := by
  unfold capture; split <;> rfl
@[simp] theorem capture_rxbIn (d : Byte) (g : Bytes) : (capture d g s).rxbIn = s.rxbIn := by
  unfold capture; split <;> rfl
@[simp] theorem capture_cmdIn (d : Byte) (g : Bytes) : (capture d g s).cmdIn = s.cmdIn := by
  unfold capture; split <;> rfl
@[simp] theorem capture_benchIn (d : Byte) (g : Bytes) : (capture d g s).benchIn = s.benchIn := by
  unfold capture; split <;> rfl
@[simp] theorem capture_sched (d : Byte) (g : Bytes) : (capture d g s).sched = s.sched := by
  unfold capture; split <;> rfl

/-- The capture tap in one line: at most the history of `CAP` changes. -/
theorem capture_eq (d : Byte) (g : Bytes) :
    capture d g s = { s with cap := if s.capEn then s.cap ++ [d :: g] else s.cap } := by
  unfold capture; split <;> rfl

/-! ### deleteEntry and register (R120, R121) -/

@[simp] theorem deleteEntry_mode (sp : Space) (k : U16) : (deleteEntry sp k s).mode = s.mode := by
  cases sp <;> rfl
@[simp] theorem deleteEntry_buf (sp : Space) (k : U16) : (deleteEntry sp k s).buf = s.buf := by
  cases sp <;> rfl
@[simp] theorem deleteEntry_linkMtu (sp : Space) (k : U16) : (deleteEntry sp k s).linkMtu = s.linkMtu := by
  cases sp <;> rfl
@[simp] theorem deleteEntry_capEn (sp : Space) (k : U16) : (deleteEntry sp k s).capEn = s.capEn := by
  cases sp <;> rfl
@[simp] theorem deleteEntry_beSimplex (sp : Space) (k : U16) : (deleteEntry sp k s).beSimplex = s.beSimplex := by
  cases sp <;> rfl
@[simp] theorem deleteEntry_ifOpen (sp : Space) (k : U16) : (deleteEntry sp k s).ifOpen = s.ifOpen := by
  cases sp <;> rfl
theorem deleteEntry_proto (sp : Space) (k : U16) : (deleteEntry sp k s).proto =
    if sp = .proto then Store.del k.toNat s.proto else s.proto := by
  cases sp <;> rfl
theorem deleteEntry_beport (sp : Space) (k : U16) : (deleteEntry sp k s).beport =
    if sp = .beport then Store.del k.toNat s.beport else s.beport := by
  cases sp <;> rfl
theorem deleteEntry_relport (sp : Space) (k : U16) : (deleteEntry sp k s).relport =
    if sp = .relport then Store.del k.toNat s.relport else s.relport := by
  cases sp <;> rfl
@[simp] theorem deleteEntry_sock (sp : Space) (k : U16) : (deleteEntry sp k s).sock = s.sock := by
  cases sp <;> rfl
@[simp] theorem deleteEntry_nextSid (sp : Space) (k : U16) : (deleteEntry sp k s).nextSid = s.nextSid := by
  cases sp <;> rfl
@[simp] theorem deleteEntry_txb (sp : Space) (k : U16) : (deleteEntry sp k s).txb = s.txb := by
  cases sp <;> rfl
@[simp] theorem deleteEntry_cap (sp : Space) (k : U16) : (deleteEntry sp k s).cap = s.cap := by
  cases sp <;> rfl
@[simp] theorem deleteEntry_diag (sp : Space) (k : U16) : (deleteEntry sp k s).diag = s.diag := by
  cases sp <;> rfl
@[simp] theorem deleteEntry_bsClosed (sp : Space) (k : U16) : (deleteEntry sp k s).bsClosed = s.bsClosed := by
  cases sp <;> rfl
@[simp] theorem deleteEntry_cmdOut (sp : Space) (k : U16) : (deleteEntry sp k s).cmdOut = s.cmdOut := by
  cases sp <;> rfl
@[simp] theorem deleteEntry_rcvOut (sp : Space) (k : U16) : (deleteEntry sp k s).rcvOut = s.rcvOut := by
  cases sp <;> rfl
@[simp] theorem deleteEntry_rxbIn (sp : Space) (k : U16) : (deleteEntry sp k s).rxbIn = s.rxbIn := by
  cases sp <;> rfl
@[simp] theorem deleteEntry_cmdIn (sp : Space) (k : U16) : (deleteEntry sp k s).cmdIn = s.cmdIn := by
  cases sp <;> rfl
@[simp] theorem deleteEntry_benchIn (sp : Space) (k : U16) : (deleteEntry sp k s).benchIn = s.benchIn := by
  cases sp <;> rfl
@[simp] theorem deleteEntry_sched (sp : Space) (k : U16) : (deleteEntry sp k s).sched = s.sched := by
  cases sp <;> rfl
@[simp] theorem register_mode (sp : Space) (k : U16) (sid : SockId) :
    (register sp k sid s).mode = s.mode := by
  cases sp <;> rfl
@[simp] theorem register_buf (sp : Space) (k : U16) (sid : SockId) :
    (register sp k sid s).buf = s.buf := by
  cases sp <;> rfl
@[simp] theorem register_linkMtu (sp : Space) (k : U16) (sid : SockId) :
    (register sp k sid s).linkMtu = s.linkMtu := by
  cases sp <;> rfl
@[simp] theorem register_capEn (sp : Space) (k : U16) (sid : SockId) :
    (register sp k sid s).capEn = s.capEn := by
  cases sp <;> rfl
@[simp] theorem register_beSimplex (sp : Space) (k : U16) (sid : SockId) :
    (register sp k sid s).beSimplex = s.beSimplex := by
  cases sp <;> rfl
@[simp] theorem register_ifOpen (sp : Space) (k : U16) (sid : SockId) :
    (register sp k sid s).ifOpen = s.ifOpen := by
  cases sp <;> rfl
theorem register_proto (sp : Space) (k : U16) (sid : SockId) : (register sp k sid s).proto =
    if sp = .proto then Store.set k.toNat (.raw sid) s.proto else s.proto := by
  cases sp <;> rfl
theorem register_beport (sp : Space) (k : U16) (sid : SockId) : (register sp k sid s).beport =
    if sp = .beport then Store.set k.toNat sid s.beport else s.beport := by
  cases sp <;> rfl
theorem register_relport (sp : Space) (k : U16) (sid : SockId) : (register sp k sid s).relport =
    if sp = .relport then Store.set k.toNat sid s.relport else s.relport := by
  cases sp <;> rfl
@[simp] theorem register_sock (sp : Space) (k : U16) (sid : SockId) :
    (register sp k sid s).sock = s.sock := by
  cases sp <;> rfl
@[simp] theorem register_nextSid (sp : Space) (k : U16) (sid : SockId) :
    (register sp k sid s).nextSid = s.nextSid := by
  cases sp <;> rfl
@[simp] theorem register_txb (sp : Space) (k : U16) (sid : SockId) :
    (register sp k sid s).txb = s.txb := by
  cases sp <;> rfl
@[simp] theorem register_cap (sp : Space) (k : U16) (sid : SockId) :
    (register sp k sid s).cap = s.cap := by
  cases sp <;> rfl
@[simp] theorem register_diag (sp : Space) (k : U16) (sid : SockId) :
    (register sp k sid s).diag = s.diag := by
  cases sp <;> rfl
@[simp] theorem register_bsClosed (sp : Space) (k : U16) (sid : SockId) :
    (register sp k sid s).bsClosed = s.bsClosed := by
  cases sp <;> rfl
@[simp] theorem register_cmdOut (sp : Space) (k : U16) (sid : SockId) :
    (register sp k sid s).cmdOut = s.cmdOut := by
  cases sp <;> rfl
@[simp] theorem register_rcvOut (sp : Space) (k : U16) (sid : SockId) :
    (register sp k sid s).rcvOut = s.rcvOut := by
  cases sp <;> rfl
@[simp] theorem register_rxbIn (sp : Space) (k : U16) (sid : SockId) :
    (register sp k sid s).rxbIn = s.rxbIn := by
  cases sp <;> rfl
@[simp] theorem register_cmdIn (sp : Space) (k : U16) (sid : SockId) :
    (register sp k sid s).cmdIn = s.cmdIn := by
  cases sp <;> rfl
@[simp] theorem register_benchIn (sp : Space) (k : U16) (sid : SockId) :
    (register sp k sid s).benchIn = s.benchIn := by
  cases sp <;> rfl
@[simp] theorem register_sched (sp : Space) (k : U16) (sid : SockId) :
    (register sp k sid s).sched = s.sched := by
  cases sp <;> rfl

/-! ### closing (R121, R128, R138) -/

/-- `CLOSE_SOCK` does nothing, or it closes an open socket and deletes the entry the socket names. -/
theorem closeSock_cases (sid : SockId) :
    (closeSock sid s = s ∧ ∀ k, Store.find sid s.sock = some k → k.closed = true) ∨
    ∃ k, Store.find sid s.sock = some k ∧ k.closed = false ∧
      closeSock sid s = deleteEntry k.space k.key { s with sock := Store.upd sid Socket.shut s.sock } := by
  unfold closeSock
  cases h : Store.find sid s.sock with
  | none => simp
  | some k =>
    cases hc : k.closed with
    | true => simp [hc]
    | false => exact Or.inr ⟨k, rfl, hc, by simp [hc]⟩

/-- `CLOSE_SOCK` touches nothing but the four stores. -/
theorem closeSock_frame (sid : SockId) :
    ∃ p b r k, closeSock sid s = { s with proto := p, beport := b, relport := r, sock := k } := by
  rcases closeSock_cases s sid with ⟨h, -⟩ | ⟨k, -, -, h⟩
  · exact ⟨_, _, _, _, h⟩
  · rw [h]; cases k.space <;> exact ⟨_, _, _, _, rfl⟩

/-- Closing any list of sockets touches nothing but the four stores. -/
theorem closeAll_frame (sids : List SockId) :
    ∃ p b r k, closeAll sids s = { s with proto := p, beport := b, relport := r, sock := k } := by
  induction sids generalizing s with
  | nil => exact ⟨_, _, _, _, rfl⟩
  | cons sid sids ih =>
    obtain ⟨p, b, r, k, h⟩ := closeSock_frame s sid
    obtain ⟨p', b', r', k', h'⟩ := ih (closeSock sid s)
    exact ⟨p', b', r', k', by rw [show closeAll (sid :: sids) s = closeAll sids (closeSock sid s) from rfl, h', h]⟩

/-! ### delivery (R122, R123, R139, R140) -/

/-- With the unbounded depth the spec takes, `ENQUEUE` always pushes (R123). -/
theorem enqueueOp_params (sid : SockId) (p : Bytes) : enqueueOp params sid p s = pushQueue sid p s := rfl

/-- `ENQUEUE` pushes, or raises `QueueFull` where the depth is finite and reached. -/
theorem enqueueOp_cases (P : Params) (sid : SockId) (p : Bytes) :
    (queueIsFull P (queueLen sid s) = true ∧ enqueueOp P sid p s = raise .queueFull (some sid) s) ∨
    (queueIsFull P (queueLen sid s) = false ∧ enqueueOp P sid p s = pushQueue sid p s) := by
  unfold enqueueOp
  cases h : queueIsFull P (queueLen sid s) <;> simp

/-- `PORT_DELIVER` raises for an unbound port, else it enqueues at the socket the port table holds. -/
theorem portDeliverOp_cases (P : Params) (sp : PortSpace) (port : U16) (p : Bytes) :
    (portEntry sp port s = none ∧
      portDeliverOp P sp port p s = raise (portNotOpen sp) (some port.toNat) s) ∨
    ∃ sid, portEntry sp port s = some sid ∧ portDeliverOp P sp port p s = enqueueOp P sid p s := by
  unfold portDeliverOp
  cases h : portEntry sp port s <;> simp

/-- `BE_DEMUX` raises for a malformed packet, else it delivers at the packet's port. -/
theorem beDemuxOp_cases (P : Params) (u : Bytes) :
    ((∃ e, beParse u = .error e) ∧ beDemuxOp P u s = raise .bePacketMalformed (some u.length) s) ∨
    ∃ port p, beParse u = .ok (port, p) ∧ beDemuxOp P u s = portDeliverOp P .beport port p s := by
  unfold beDemuxOp
  cases h : beParse u with
  | error e => exact Or.inl ⟨⟨e, rfl⟩, rfl⟩
  | ok v => exact Or.inr ⟨v.1, v.2, rfl, rfl⟩

/-- `DISPATCH` raises for an unbound number, enqueues at a raw socket, or hands on to the port switch. -/
theorem dispatchOp_cases (P : Params) (n : U16) (p : Bytes) :
    (Store.find n.toNat s.proto = none ∧
      dispatchOp P n p s = raise .unregisteredProtocol (some n.toNat) s) ∨
    (∃ sid, Store.find n.toNat s.proto = some (.raw sid) ∧ dispatchOp P n p s = enqueueOp P sid p s) ∨
    (Store.find n.toNat s.proto = some .beSwitch ∧ dispatchOp P n p s = beDemuxOp P p s) := by
  unfold dispatchOp
  cases h : Store.find n.toNat s.proto with
  | none => simp
  | some e => cases e <;> simp

/-- `RX_FRAME` raises what `DECODE_FRAME` reports; else it captures the datagram and raises
`DatagramTooShort` or dispatches (R111). -/
theorem rxFrameOp_cases (P : Params) (f : Bytes) :
    (∃ e, decodeFrame f = .error e ∧ rxFrameOp P f s = raise e none s) ∨
    (∃ dg e, decodeFrame f = .ok dg ∧ unencap dg = .error e ∧
      rxFrameOp P f s = raise .datagramTooShort (some dg.length) (capture dirReceived dg s)) ∨
    ∃ dg n p, decodeFrame f = .ok dg ∧ unencap dg = .ok (n, p) ∧
      rxFrameOp P f s = dispatchOp P n p (capture dirReceived dg s) := by
  unfold rxFrameOp
  cases h : decodeFrame f with
  | error e => exact Or.inl ⟨e, rfl, rfl⟩
  | ok dg =>
    cases hu : unencap dg with
    | error e => exact Or.inr (Or.inl ⟨dg, e, rfl, hu, by simp [hu]⟩)
    | ok v => exact Or.inr (Or.inr ⟨dg, v.1, v.2, rfl, hu, by simp [hu]⟩)

/-! ### transmission (R124) -/

/-- `TX_DATAGRAM` appends one wire frame to `TXB` and, with the tap on, one record to `CAP`. -/
theorem txDatagramOp_eq (n : U16) (p : Bytes) :
    txDatagramOp n p s =
      { s with
        cap := if s.capEn then s.cap ++ [dirSent :: encap n p] else s.cap
        txb := s.txb ++ encodeFrame (encap n p) } := by
  unfold txDatagramOp; rw [capture_eq]; rfl

/-! ### The stores stay canonical -/

theorem Memory.wf_iff :
    Memory.wf s = true ↔
      (Store.wf s.proto = true ∧ Store.keys16 s.proto = true) ∧
      (Store.wf s.beport = true ∧ Store.keys16 s.beport = true) ∧
      (Store.wf s.relport = true ∧ Store.keys16 s.relport = true) ∧ Store.wf s.sock = true := by
  simp [Memory.wf, Bool.and_eq_true, and_assoc]

/-- The canonical form depends on the four stores alone. -/
theorem Memory.wf_congr {s t : State} (hp : t.proto = s.proto) (hb : t.beport = s.beport)
    (hr : t.relport = s.relport) (hk : t.sock = s.sock) : Memory.wf t = Memory.wf s := by
  simp [Memory.wf, hp, hb, hr, hk]

theorem reset_wf : Memory.wf State.reset = true := by decide

variable {s}

theorem pushQueue_wf (sid : SockId) (p : Bytes) (h : Memory.wf s = true) :
    Memory.wf (pushQueue sid p s) = true := by
  rw [Memory.wf_iff] at h ⊢
  exact ⟨h.1, h.2.1, h.2.2.1, Store.wf_upd _ _ h.2.2.2⟩

theorem popQueue_wf (sid : SockId) (q : List Bytes) (h : Memory.wf s = true) :
    Memory.wf (popQueue sid q s) = true := by
  rw [Memory.wf_iff] at h ⊢
  exact ⟨h.1, h.2.1, h.2.2.1, Store.wf_upd _ _ h.2.2.2⟩

theorem deleteEntry_wf (sp : Space) (k : U16) (h : Memory.wf s = true) :
    Memory.wf (deleteEntry sp k s) = true := by
  rw [Memory.wf_iff] at h ⊢
  cases sp
  · exact ⟨⟨Store.wf_del _ h.1.1, Store.keys16_del _ h.1.2⟩, h.2⟩
  · exact ⟨h.1, ⟨Store.wf_del _ h.2.1.1, Store.keys16_del _ h.2.1.2⟩, h.2.2⟩
  · exact ⟨h.1, h.2.1, ⟨Store.wf_del _ h.2.2.1.1, Store.keys16_del _ h.2.2.1.2⟩, h.2.2.2⟩

theorem register_wf (sp : Space) (k : U16) (sid : SockId) (h : Memory.wf s = true) :
    Memory.wf (register sp k sid s) = true := by
  rw [Memory.wf_iff] at h ⊢
  cases sp
  · exact ⟨⟨Store.wf_set _ _ h.1.1, Store.keys16_set k.isLt _ h.1.2⟩, h.2⟩
  · exact ⟨h.1, ⟨Store.wf_set _ _ h.2.1.1, Store.keys16_set k.isLt _ h.2.1.2⟩, h.2.2⟩
  · exact ⟨h.1, h.2.1, ⟨Store.wf_set _ _ h.2.2.1.1, Store.keys16_set k.isLt _ h.2.2.1.2⟩, h.2.2.2⟩

theorem bindNew_wf (sp : Space) (k : U16) (h : Memory.wf s = true) :
    Memory.wf (bindNew sp k s) = true := by
  refine register_wf sp k _ ?_
  rw [Memory.wf_iff] at h ⊢
  exact ⟨h.1, h.2.1, h.2.2.1, Store.wf_set _ _ h.2.2.2⟩

theorem closeSock_wf (sid : SockId) (h : Memory.wf s = true) :
    Memory.wf (closeSock sid s) = true := by
  rcases closeSock_cases s sid with ⟨he, -⟩ | ⟨k, -, -, he⟩
  · rw [he]; exact h
  · rw [he]
    refine deleteEntry_wf _ _ ?_
    rw [Memory.wf_iff] at h ⊢
    exact ⟨h.1, h.2.1, h.2.2.1, Store.wf_upd _ _ h.2.2.2⟩

theorem closeAll_wf (sids : List SockId) (h : Memory.wf s = true) :
    Memory.wf (closeAll sids s) = true := by
  induction sids generalizing s with
  | nil => exact h
  | cons sid sids ih => exact ih (closeSock_wf sid h)

theorem resetOp_wf (P : Params) : Memory.wf (resetOp P s) = true := rfl

end Sys2Proof.Machine
end

