-- ==== Sys2Proof/Laws/Commands.lean ====
section
/-! SUPPORT. What each command and each receive operation can do, said once: one case lemma for each that
branches, what closing leaves in the socket store, and the frames of the receive chain. -/

namespace Sys2Proof.Machine

variable (s : State)

/-! ### Closing, read through the socket store (R121, R128, R138) -/

/-- `CLOSE_SOCK` shuts at most the one socket. -/
theorem closeSock_find (sid a : SockId) : Store.find a (closeSock sid s).sock =
    if a = sid then (Store.find a s.sock).map (fun k => if k.closed then k else Socket.shut k)
    else Store.find a s.sock := by
  rcases closeSock_cases s sid with ⟨e, hc⟩ | ⟨k, hk, hc, e⟩
  · rw [e]; split
    · next h =>
      subst h
      cases hk : Store.find a s.sock with
      | none => rfl
      | some k => simp [hc k hk]
    · rfl
  · rw [e, deleteEntry_sock, Store.find_upd]
    split
    · next h => subst h; simp [hk, hc]
    · rfl

/-- Closing a list of sockets shuts those of the list that are open, and no other. -/
theorem closeAll_find (sids : List SockId) (a : SockId) : Store.find a (closeAll sids s).sock =
    if a ∈ sids then (Store.find a s.sock).map (fun k => if k.closed then k else Socket.shut k)
    else Store.find a s.sock := by
  induction sids generalizing s with
  | nil => simp [closeAll]
  | cons sid sids ih =>
    show Store.find a (closeAll sids (closeSock sid s)).sock = _
    rw [ih, closeSock_find]
    by_cases h1 : a = sid
    · subst h1
      by_cases h2 : a ∈ sids
      · simp only [h2, if_true, List.mem_cons, or_true]
        cases Store.find a s.sock with
        | none => rfl
        | some k => cases hc : k.closed <;> simp [hc, Socket.shut]
      · simp [h2]
    · simp [h1]

/-- `CLOSE` answers `NoSuchSocket`, or closes and answers `Ok` (R121). -/
theorem closeOp_cases (sid : SockId) :
    (Store.find sid s.sock = none ∧ closeOp sid s = (s, .err .noSuchSocket)) ∨
    (∃ k, Store.find sid s.sock = some k) ∧ closeOp sid s = (closeSock sid s, .ok) := by
  unfold closeOp Store.has
  cases h : Store.find sid s.sock <;> simp

/-- `PORT_FORCE_CLOSE` does nothing, or `CLOSE_SOCK` of the socket the port table holds (R142). -/
theorem portForceCloseOp_cases (sp : PortSpace) (port : U16) :
    (portEntry sp port s = none ∧ portForceCloseOp sp port s = s) ∨
    ∃ sid, portEntry sp port s = some sid ∧ portForceCloseOp sp port s = closeSock sid s := by
  unfold portForceCloseOp
  cases h : portEntry sp port s <;> simp

/-! ### The other commands -/

/-- `BIND` refuses for one of three reasons, or it creates a socket (R120). -/
theorem bindOp_cases (sp : Space) (key : U16) :
    (∃ e, bindOp sp key s = (s, .err e)) ∨
    (s.ifOpen = true ∧ (sp = .beport → attached s = true) ∧ bound sp key s = false ∧
      bindOp sp key s = (bindNew sp key s, .okSid s.nextSid)) := by
  unfold bindOp
  split
  · exact Or.inl ⟨_, rfl⟩
  · next ho =>
    split
    · exact Or.inl ⟨_, rfl⟩
    · next ha =>
      split
      · exact Or.inl ⟨_, rfl⟩
      · next hb =>
        refine Or.inr ⟨by simpa using ho, ?_, by simpa using hb, rfl⟩
        rintro rfl; simpa using ha

/-- `SEND` refuses without effect, or it transmits one datagram and answers `Ok` (R125, R141, R147). -/
theorem sendOp_cases (sid : SockId) (p : Bytes) :
    (∃ e, sendOp sid p s = (s, .err e)) ∨ ∃ n dg, sendOp sid p s = (txDatagramOp n dg s, .ok) := by
  unfold sendOp
  split
  · exact Or.inl ⟨_, rfl⟩
  · split
    · exact Or.inl ⟨_, rfl⟩
    · split
      · exact Or.inl ⟨_, rfl⟩
      · split
        · exact Or.inr ⟨_, _, rfl⟩
        · unfold sendBe
          split
          · exact Or.inl ⟨_, rfl⟩
          · split
            · exact Or.inl ⟨_, rfl⟩
            · split
              · exact Or.inl ⟨_, rfl⟩
              · split
                · exact Or.inl ⟨_, rfl⟩
                · exact Or.inr ⟨_, _, rfl⟩
        · exact Or.inl ⟨_, rfl⟩

/-- `RECV` refuses without effect, or it pops the head of an open socket's queue (R127). -/
theorem recvOp_cases (sid : SockId) :
    (∃ e, recvOp sid s = (s, .err e)) ∨
    ∃ k p rest, Store.find sid s.sock = some k ∧ k.closed = false ∧ k.queue = p :: rest ∧
      recvOp sid s = (popQueue sid rest s, .okBytes p) := by
  unfold recvOp
  cases hk : Store.find sid s.sock with
  | none => exact Or.inl ⟨_, rfl⟩
  | some k =>
    cases hc : k.closed with
    | true => exact Or.inl ⟨.socketClosed, by simp [hc]⟩
    | false =>
      cases hq : k.queue with
      | nil => exact Or.inl ⟨.receiveQueueEmpty, by simp [hc, hq]⟩
      | cons p rest => exact Or.inr ⟨k, p, rest, rfl, hc, hq, by simp [hc, hq]⟩

/-- `TP_ATTACH` refuses without effect, or it puts the switch at 0x3A29 (R137). -/
theorem tpAttachOp_cases (x : Bool) :
    (∃ e, tpAttachOp x s = (s, .err e)) ∨
    (s.ifOpen = true ∧ Store.find protoBeDataNum.toNat s.proto = none ∧
      tpAttachOp x s =
        ({ s with proto := Store.set protoBeDataNum.toNat .beSwitch s.proto, beSimplex := x }, .ok)) := by
  unfold tpAttachOp
  split
  · exact Or.inl ⟨_, rfl⟩
  · next ho =>
    split
    · exact Or.inl ⟨_, rfl⟩
    · next hh =>
      refine Or.inr ⟨by simpa using ho, ?_, rfl⟩
      rw [← Store.has_false_iff]; simpa using hh

/-- `TP_DETACH` refuses without effect, or it detaches the switch (R138). -/
theorem tpDetachOp_cases :
    (attached s = false ∧ tpDetachOp s = (s, .err .notAttached)) ∨
    (attached s = true ∧ tpDetachOp s = (detach s, .ok)) := by
  unfold tpDetachOp
  cases h : attached s <;> simp

/-- Detaching touches nothing but the four stores and `S.be_simplex` (R138). -/
theorem detach_frame : ∃ p b r k, detach s =
    { s with proto := p, beport := b, relport := r, sock := k, beSimplex := false } := by
  obtain ⟨p, b, r, k, h⟩ := closeAll_frame s (s.beport.map (·.2))
  unfold detach
  rw [h]
  exact ⟨_, _, _, _, rfl⟩

/-- The removal of the switch touches nothing but the protocol registry (R128). -/
theorem dropSwitch_frame : ∃ p, dropSwitch s = { s with proto := p } := by
  unfold dropSwitch
  split <;> exact ⟨_, rfl⟩

/-- What `IF_CLOSE` does to an open interface, but for the contents of the stores (R128). -/
theorem shutDown_frame : ∃ p b r k, shutDown s =
    { s with
      proto := p, beport := b, relport := r, sock := k, beSimplex := false, mode := .waitSync, buf := [],
      ifOpen := false, bsClosed := s.bsClosed + 1 } := by
  obtain ⟨p, b, r, k, h⟩ := closeAll_frame s (Store.keys s.sock)
  obtain ⟨p', h'⟩ := dropSwitch_frame (closeAll (Store.keys s.sock) s)
  unfold shutDown
  rw [h', h]
  exact ⟨_, _, _, _, rfl⟩

/-! ### The receive chain (R104, R111, R122, R139, R140) -/

/-- `ENQUEUE` touches one queue or one history. -/
theorem enqueueOp_frame (P : Params) (sid : SockId) (p : Bytes) :
    ∃ d k, enqueueOp P sid p s = { s with diag := d, sock := k } := by
  rcases enqueueOp_cases s P sid p with ⟨-, e⟩ | ⟨-, e⟩ <;> rw [e] <;> exact ⟨_, _, rfl⟩

/-- `PORT_DELIVER` touches one queue or one history. -/
theorem portDeliverOp_frame (P : Params) (sp : PortSpace) (port : U16) (p : Bytes) :
    ∃ d k, portDeliverOp P sp port p s = { s with diag := d, sock := k } := by
  rcases portDeliverOp_cases s P sp port p with ⟨-, e⟩ | ⟨sid, -, e⟩ <;> rw [e]
  · exact ⟨_, _, rfl⟩
  · exact enqueueOp_frame s P sid p

/-- `DISPATCH` touches one queue or one history. -/
theorem dispatchOp_frame (P : Params) (n : U16) (p : Bytes) :
    ∃ d k, dispatchOp P n p s = { s with diag := d, sock := k } := by
  rcases dispatchOp_cases s P n p with ⟨-, e⟩ | ⟨sid, -, e⟩ | ⟨-, e⟩ <;> rw [e]
  · exact ⟨_, _, rfl⟩
  · exact enqueueOp_frame s P sid p
  · rcases beDemuxOp_cases s P p with ⟨-, e⟩ | ⟨port, u, -, e⟩ <;> rw [e]
    · exact ⟨_, _, rfl⟩
    · exact portDeliverOp_frame s P .beport port u

/-- `RX_FRAME` touches one queue, `DIAG` and `CAP`. -/
theorem rxFrameOp_frame (P : Params) (f : Bytes) :
    ∃ d k c, rxFrameOp P f s = { s with cap := c, diag := d, sock := k } := by
  rcases rxFrameOp_cases s P f with ⟨e, -, h⟩ | ⟨dg, e, -, -, h⟩ | ⟨dg, n, p, -, -, h⟩ <;> rw [h]
  · exact ⟨_, _, _, rfl⟩
  · rw [capture_eq]; exact ⟨_, _, _, rfl⟩
  · obtain ⟨d, k, e⟩ := dispatchOp_frame (capture dirReceived dg s) P n p
    rw [e, capture_eq]
    exact ⟨_, _, _, rfl⟩

/-- `RX_BYTE` touches the splitter, one queue, `DIAG` and `CAP`. -/
theorem rxByteOp_frame (P : Params) (b : Byte) : ∃ m u d k c,
    rxByteOp P b s = { s with mode := m, buf := u, cap := c, diag := d, sock := k } := by
  unfold rxByteOp
  split
  · exact ⟨_, _, _, _, _, rfl⟩
  · exact ⟨_, _, _, _, _, rfl⟩
  · exact ⟨_, _, _, _, _, rfl⟩
  · exact ⟨_, _, _, _, _, rfl⟩
  · exact ⟨_, _, _, _, _, rfl⟩
  · exact ⟨_, _, _, _, _, rfl⟩
  · obtain ⟨d, k, c, e⟩ := rxFrameOp_frame { s with buf := [] } P s.buf
    unfold flagFrameCase
    rw [e]
    exact ⟨_, _, _, _, _, rfl⟩

/-- A row of a case answers its own effect where the state selects it, else what `RX_BYTE` answers (log
entry 8). -/
theorem rxRow_cases (c : RxCase) (b : Byte) (own : State) :
    (rxCase params b s = c ∧ rxRow c b own s = .next own) ∨
    (rxCase params b s ≠ c ∧ rxRow c b own s = .next (rxByteOp params b s)) := by
  unfold rxRow
  split
  · exact Or.inl ⟨by assumption, rfl⟩
  · exact Or.inr ⟨by assumption, rfl⟩

/-- `ENQUEUE` as a row pushes on an open socket and stops on any other id (R123; log entry 10). -/
theorem execEnqueue_cases (sid : SockId) (p : Bytes) :
    (openSocket sid s = none ∧ execEnqueue sid p s = .fault (.socketNotOpen sid)) ∨
    ∃ k, openSocket sid s = some k ∧ execEnqueue sid p s = .next (pushQueue sid p s) := by
  unfold execEnqueue
  cases h : openSocket sid s with
  | none => exact Or.inl ⟨rfl, rfl⟩
  | some k => exact Or.inr ⟨k, rfl, rfl⟩

/-! ### The stores stay canonical -/

variable {s}

theorem attach_wf (x : Bool) (h : Memory.wf s = true) : Memory.wf
    { s with proto := Store.set protoBeDataNum.toNat .beSwitch s.proto, beSimplex := x } = true := by
  rw [Memory.wf_iff] at h ⊢
  exact ⟨⟨Store.wf_set _ _ h.1.1, Store.keys16_set (by decide) _ h.1.2⟩, h.2⟩

theorem dropSwitch_wf (h : Memory.wf s = true) : Memory.wf (dropSwitch s) = true := by
  unfold dropSwitch
  split
  · rw [Memory.wf_iff] at h ⊢
    exact ⟨⟨Store.wf_del _ h.1.1, Store.keys16_del _ h.1.2⟩, h.2⟩
  · exact h

theorem detach_wf (h : Memory.wf s = true) : Memory.wf (detach s) = true := by
  have h := closeAll_wf (s.beport.map (·.2)) h
  rw [Memory.wf_iff] at h
  unfold detach
  rw [Memory.wf_iff]
  exact ⟨⟨Store.wf_del _ h.1.1, Store.keys16_del _ h.1.2⟩, h.2⟩

theorem shutDown_wf (h : Memory.wf s = true) : Memory.wf (shutDown s) = true :=
  dropSwitch_wf (closeAll_wf (Store.keys s.sock) h)

end Sys2Proof.Machine
end

