-- ==== Sys2Proof/Laws/PerInstr.lean ====
section
/-! SUPPORT. What holds of every instruction as syntax, one lemma for each constructor. -/

namespace Sys2Proof.Laws.EncodeHead

/-- The number of an instruction's row in the opcode table (30_encoding.md R75; log entry 3). -/
def row : Instr → Nat
  | .crc32 _ => 1
  | .fcsAppend _ => 2
  | .fcsCheck _ => 3
  | .cobsEnc _ => 4
  | .cobsDec _ => 5
  | .swapOut _ => 6
  | .swapIn _ => 7
  | .encodeFrame _ => 8
  | .decodeFrame _ => 9
  | .encap _ _ => 10
  | .unencap _ => 11
  | .beBuild _ _ => 12
  | .beParse _ => 13
  | .relBuildInfo _ _ _ _ _ => 14
  | .relBuildSup _ _ _ => 15
  | .relParse _ => 16
  | .rxByte _ => 17
  | .rxIgnored _ => 18
  | .syncFlag => 19
  | .syncSkip _ => 20
  | .flagEmpty => 21
  | .flagFrame => 22
  | .collectData _ => 23
  | .collectOverflow _ => 24
  | .rxFrame _ => 25
  | .rxChunk _ => 26
  | .bind _ _ => 27
  | .close _ => 28
  | .dispatch _ _ => 29
  | .enqueue _ _ => 30
  | .txDatagram _ _ => 31
  | .send _ _ => 32
  | .beSend _ _ => 33
  | .relSend _ _ => 34
  | .recv _ => 35
  | .ifClose => 36
  | .setMtu _ => 37
  | .setCap _ => 38
  | .tpAttach _ => 39
  | .tpDetach => 40
  | .beDemux _ => 41
  | .portDeliver _ _ _ => 42
  | .portForceClose _ _ => 43
  | .relDeliver _ _ => 44
  | .reset => 45
  | .protoLcp _ => 46
  | .protoBeNcp _ => 47
  | .protoBeData _ => 48
  | .protoRelNcp _ => 49
  | .protoRelCmd _ => 50
  | .protoRelRsp _ => 51
  | .pcmpPort _ _ => 52
  | .relInfo _ _ => 53
  | .relSupRr _ _ => 54
  | .relSupRnr _ _ => 55
  | .relSupRej _ _ => 56
  | .relSupKindUndefined _ _ => 57
  | .relUndefined _ _ => 58
  | .cobsCodeIllegal _ => 59
  | .cobsCodeFull _ => 60
  | .cobsCodeShort _ _ => 61

/-- The record of an instruction starts with the number of its row, so the records of two rows differ in
their first byte (log entry 3). -/
def Statement (i : Instr) : Prop := ∃ r : Bytes, encode i = BitVec.ofNat 8 (row i) :: r

theorem crc32 : ∀ a, Statement (.crc32 a) := fun _ => ⟨_, rfl⟩
theorem fcsAppend : ∀ a, Statement (.fcsAppend a) := fun _ => ⟨_, rfl⟩
theorem fcsCheck : ∀ a, Statement (.fcsCheck a) := fun _ => ⟨_, rfl⟩
theorem cobsEnc : ∀ a, Statement (.cobsEnc a) := fun _ => ⟨_, rfl⟩
theorem cobsDec : ∀ a, Statement (.cobsDec a) := fun _ => ⟨_, rfl⟩
theorem swapOut : ∀ a, Statement (.swapOut a) := fun _ => ⟨_, rfl⟩
theorem swapIn : ∀ a, Statement (.swapIn a) := fun _ => ⟨_, rfl⟩
theorem encodeFrame : ∀ a, Statement (.encodeFrame a) := fun _ => ⟨_, rfl⟩
theorem decodeFrame : ∀ a, Statement (.decodeFrame a) := fun _ => ⟨_, rfl⟩
theorem encap : ∀ a b, Statement (.encap a b) := fun _ _ => ⟨_, rfl⟩
theorem unencap : ∀ a, Statement (.unencap a) := fun _ => ⟨_, rfl⟩
theorem beBuild : ∀ a b, Statement (.beBuild a b) := fun _ _ => ⟨_, rfl⟩
theorem beParse : ∀ a, Statement (.beParse a) := fun _ => ⟨_, rfl⟩
theorem relBuildInfo : ∀ a b c d e, Statement (.relBuildInfo a b c d e) := fun _ _ _ _ _ => ⟨_, rfl⟩
theorem relBuildSup : ∀ a b c, Statement (.relBuildSup a b c) := fun _ _ _ => ⟨_, rfl⟩
theorem relParse : ∀ a, Statement (.relParse a) := fun _ => ⟨_, rfl⟩
theorem rxByte : ∀ a, Statement (.rxByte a) := fun _ => ⟨_, rfl⟩
theorem rxIgnored : ∀ a, Statement (.rxIgnored a) := fun _ => ⟨_, rfl⟩
theorem syncFlag : Statement .syncFlag := ⟨_, rfl⟩
theorem syncSkip : ∀ a, Statement (.syncSkip a) := fun _ => ⟨_, rfl⟩
theorem flagEmpty : Statement .flagEmpty := ⟨_, rfl⟩
theorem flagFrame : Statement .flagFrame := ⟨_, rfl⟩
theorem collectData : ∀ a, Statement (.collectData a) := fun _ => ⟨_, rfl⟩
theorem collectOverflow : ∀ a, Statement (.collectOverflow a) := fun _ => ⟨_, rfl⟩
theorem rxFrame : ∀ a, Statement (.rxFrame a) := fun _ => ⟨_, rfl⟩
theorem rxChunk : ∀ a, Statement (.rxChunk a) := fun _ => ⟨_, rfl⟩
theorem bind : ∀ a b, Statement (.bind a b) := fun _ _ => ⟨_, rfl⟩
theorem close : ∀ a, Statement (.close a) := fun _ => ⟨_, rfl⟩
theorem dispatch : ∀ a b, Statement (.dispatch a b) := fun _ _ => ⟨_, rfl⟩
theorem enqueue : ∀ a b, Statement (.enqueue a b) := fun _ _ => ⟨_, rfl⟩
theorem txDatagram : ∀ a b, Statement (.txDatagram a b) := fun _ _ => ⟨_, rfl⟩
theorem send : ∀ a b, Statement (.send a b) := fun _ _ => ⟨_, rfl⟩
theorem beSend : ∀ a b, Statement (.beSend a b) := fun _ _ => ⟨_, rfl⟩
theorem relSend : ∀ a b, Statement (.relSend a b) := fun _ _ => ⟨_, rfl⟩
theorem recv : ∀ a, Statement (.recv a) := fun _ => ⟨_, rfl⟩
theorem ifClose : Statement .ifClose := ⟨_, rfl⟩
theorem setMtu : ∀ a, Statement (.setMtu a) := fun _ => ⟨_, rfl⟩
theorem setCap : ∀ a, Statement (.setCap a) := fun _ => ⟨_, rfl⟩
theorem tpAttach : ∀ a, Statement (.tpAttach a) := fun _ => ⟨_, rfl⟩
theorem tpDetach : Statement .tpDetach := ⟨_, rfl⟩
theorem beDemux : ∀ a, Statement (.beDemux a) := fun _ => ⟨_, rfl⟩
theorem portDeliver : ∀ a b c, Statement (.portDeliver a b c) := fun _ _ _ => ⟨_, rfl⟩
theorem portForceClose : ∀ a b, Statement (.portForceClose a b) := fun _ _ => ⟨_, rfl⟩
theorem relDeliver : ∀ a b, Statement (.relDeliver a b) := fun _ _ => ⟨_, rfl⟩
theorem reset : Statement .reset := ⟨_, rfl⟩
theorem protoLcp : ∀ a, Statement (.protoLcp a) := fun _ => ⟨_, rfl⟩
theorem protoBeNcp : ∀ a, Statement (.protoBeNcp a) := fun _ => ⟨_, rfl⟩
theorem protoBeData : ∀ a, Statement (.protoBeData a) := fun _ => ⟨_, rfl⟩
theorem protoRelNcp : ∀ a, Statement (.protoRelNcp a) := fun _ => ⟨_, rfl⟩
theorem protoRelCmd : ∀ a, Statement (.protoRelCmd a) := fun _ => ⟨_, rfl⟩
theorem protoRelRsp : ∀ a, Statement (.protoRelRsp a) := fun _ => ⟨_, rfl⟩
theorem pcmpPort : ∀ a b, Statement (.pcmpPort a b) := fun _ _ => ⟨_, rfl⟩
theorem relInfo : ∀ a b, Statement (.relInfo a b) := fun _ _ => ⟨_, rfl⟩
theorem relSupRr : ∀ a b, Statement (.relSupRr a b) := fun _ _ => ⟨_, rfl⟩
theorem relSupRnr : ∀ a b, Statement (.relSupRnr a b) := fun _ _ => ⟨_, rfl⟩
theorem relSupRej : ∀ a b, Statement (.relSupRej a b) := fun _ _ => ⟨_, rfl⟩
theorem relSupKindUndefined : ∀ a b, Statement (.relSupKindUndefined a b) := fun _ _ => ⟨_, rfl⟩
theorem relUndefined : ∀ a b, Statement (.relUndefined a b) := fun _ _ => ⟨_, rfl⟩
theorem cobsCodeIllegal : ∀ a, Statement (.cobsCodeIllegal a) := fun _ => ⟨_, rfl⟩
theorem cobsCodeFull : ∀ a, Statement (.cobsCodeFull a) := fun _ => ⟨_, rfl⟩
theorem cobsCodeShort : ∀ a b, Statement (.cobsCodeShort a b) := fun _ _ => ⟨_, rfl⟩

end Sys2Proof.Laws.EncodeHead
end

