-- ==== Sys2Proof/Laws/Step.lean ====
section
/-! SUPPORT. What a step can do, said once: it uses up a turn with nothing to take, or it runs one
instruction from one of the three lanes. -/

namespace Sys2Proof.Machine

/-- Everything behind a next state of `step` (R51, R164; log entries 4, 6): an idle turn, the byte of a turn of
the receive agent, an issuable command, or a bench record. -/
theorem step_cases {s t : State} (h : step s = .next t) :
    (fetch s = .idle ∧ t = nextTurn s) ∨
    (∃ b, fetch s = .byte b ∧ t = rxByteOp params b (takeRxb s)) ∨
    (∃ r i, fetch s = .command r ∧ decode r = .ok i ∧ i.issuable = true ∧
      exec i (takeCmd s) = .next t) ∨
    ∃ r i, fetch s = .bench r ∧ decode r = .ok i ∧ exec i (takeBench s) = .next t := by
  unfold step at h
  split at h
  · next hf => cases h; exact Or.inl ⟨hf, rfl⟩
  · next b hf => cases h; exact Or.inr (Or.inl ⟨b, hf, rfl⟩)
  · next r hf =>
    split at h
    · cases h
    · next i hd =>
      split at h
      · next hi => exact Or.inr (Or.inr (Or.inl ⟨r, i, hf, hd, hi, h⟩))
      · cases h
  · next r hf =>
    split at h
    · cases h
    · next i hd => exact Or.inr (Or.inr (Or.inr ⟨r, i, hf, hd, h⟩))

/-- The decoder answers only well-formed instructions. -/
theorem decode_wf {r : Bytes} {i : Instr} (h : decode r = .ok i) : i.wf = true := by
  unfold decode at h
  split at h
  · cases h
  · split at h
    · cases h
    · split at h
      · cases h; assumption
      · cases h

end Sys2Proof.Machine
end

