-- ==== Sys2Proof/Tests/Slice0.lean ====
section
/-! SUPPORT. Tests. Expected results are those of the spec: the vectors of 95_test_vectors.md (V<n>, programs
P1 to P5), the worked examples of the rules, and words written out bit by bit from the encoding tables of
30_encoding.md; records are written out by hand from log entry 3. -/

namespace Sys2Proof.Tests

open Sys2Proof Sys2Proof.Machine

/-! ### Well-formedness: each check refuses an ill-formed term -/

theorem test_wf_refuses_syncSkip_of_flag : (Instr.syncSkip 0x55).wf = false := by decide
theorem test_wf_refuses_collectData_of_flag : (Instr.collectData 0x55).wf = false := by decide
theorem test_wf_refuses_collectOverflow_of_flag : (Instr.collectOverflow 0x55).wf = false := by decide
theorem test_wf_refuses_empty_frame : (Instr.rxFrame []).wf = false := by decide
theorem test_wf_refuses_frame_with_flag : (Instr.rxFrame [0x01, 0x55]).wf = false := by decide
theorem test_wf_refuses_short_code_of_illegal : (Instr.cobsCodeShort 0x00 []).wf = false := by decide
theorem test_wf_refuses_short_code_of_full : (Instr.cobsCodeShort 0xFF []).wf = false := by decide
theorem test_wf_accepts_the_boundary_short_codes :
    (Instr.cobsCodeShort 0x01 []).wf = true ∧ (Instr.cobsCodeShort 0xFE []).wf = true ∧
    (Instr.syncSkip 0x54).wf = true ∧ (Instr.rxFrame [0x00]).wf = true := by decide

/-! ### Decoding -/

theorem test_decode_pure_codec :
    decode [1, 0xAA] = .ok (.crc32 [0xAA]) ∧ decode [2, 0xAA] = .ok (.fcsAppend [0xAA]) ∧
    decode [3, 0xAA] = .ok (.fcsCheck [0xAA]) ∧ decode [4, 0xAA] = .ok (.cobsEnc [0xAA]) ∧
    decode [5, 0xAA] = .ok (.cobsDec [0xAA]) ∧ decode [6, 0xAA] = .ok (.swapOut [0xAA]) ∧
    decode [7, 0xAA] = .ok (.swapIn [0xAA]) ∧ decode [8] = .ok (.encodeFrame []) ∧
    decode [9, 0x55] = .ok (.decodeFrame [0x55]) := by decide

theorem test_decode_pure_packets :
    decode [10, 0xC0, 0x21, 0x01] = .ok (.encap 0xC021 [0x01]) ∧
    decode [11, 0xC0] = .ok (.unencap [0xC0]) ∧
    decode [12, 0x00, 0x2A, 0x68] = .ok (.beBuild 0x002A [0x68]) ∧
    decode [13, 0x00] = .ok (.beParse [0x00]) ∧
    decode [14, 0x7F, 0x03, 0x01, 0x12, 0x34, 0xAA] = .ok (.relBuildInfo 127 3 1 0x1234 [0xAA]) ∧
    decode [15, 2, 0x7F, 0] = .ok (.relBuildSup .rej 127 0) ∧
    decode [16, 0x01, 0x0D] = .ok (.relParse [0x01, 0x0D]) := by decide

theorem test_decode_stream_cases :
    decode [17, 0x41] = .ok (.rxByte 0x41) ∧ decode [18, 0x55] = .ok (.rxIgnored 0x55) ∧
    decode [19, 0x55] = .ok .syncFlag ∧ decode [20, 0x41] = .ok (.syncSkip 0x41) ∧
    decode [21, 0x55] = .ok .flagEmpty ∧ decode [22, 0x55] = .ok .flagFrame ∧
    decode [23, 0x00] = .ok (.collectData 0x00) ∧ decode [24, 0x05] = .ok (.collectOverflow 0x05) ∧
    decode [25, 0x03, 0x11] = .ok (.rxFrame [0x03, 0x11]) ∧
    decode [26, 0x55, 0x01] = .ok (.rxChunk [0x55, 0x01]) := by decide

/-- Socket ids: 300 is the base-128 digits 44 and 2, so the bytes AC 02. -/
theorem test_decode_switch_commands :
    decode [27, 0, 0xC0, 0x21] = .ok (.bind .proto 0xC021) ∧ decode [28, 0xAC, 0x02] = .ok (.close 300) ∧
    decode [29, 0xC0, 0x21, 0x02] = .ok (.dispatch 0xC021 [0x02]) ∧
    decode [30, 0x00, 0x07] = .ok (.enqueue 0 [0x07]) ∧
    decode [31, 0xC0, 0x21] = .ok (.txDatagram 0xC021 []) ∧
    decode [32, 0x05, 0x68] = .ok (.send 5 [0x68]) ∧ decode [33, 0x05] = .ok (.beSend 5 []) ∧
    decode [34, 0x7F] = .ok (.relSend 127 []) ∧ decode [35, 0x80, 0x01] = .ok (.recv 128) ∧
    decode [36] = .ok .ifClose ∧ decode [37, 0x01, 0xF4] = .ok (.setMtu 500) ∧
    decode [38, 1] = .ok (.setCap true) := by decide

theorem test_decode_port_commands :
    decode [39, 0] = .ok (.tpAttach false) ∧ decode [40] = .ok .tpDetach ∧
    decode [41, 0x00, 0x2A] = .ok (.beDemux [0x00, 0x2A]) ∧
    decode [42, 2, 0x12, 0x34, 0xAA] = .ok (.portDeliver .relport 0x1234 [0xAA]) ∧
    decode [43, 1, 0x00, 0x2A] = .ok (.portForceClose .beport 0x002A) ∧
    decode [44, 0x12, 0x34] = .ok (.relDeliver 0x1234 []) ∧ decode [45] = .ok .reset := by decide

theorem test_decode_numbers_and_port :
    decode [46, 0xC0, 0x21, 0x01] = .ok (.protoLcp [0x01]) ∧
    decode [47, 0xBA, 0x29] = .ok (.protoBeNcp []) ∧ decode [48, 0x3A, 0x29] = .ok (.protoBeData []) ∧
    decode [49, 0xBA, 0x33] = .ok (.protoRelNcp []) ∧ decode [50, 0x3A, 0x33] = .ok (.protoRelCmd []) ∧
    decode [51, 0x3A, 0x35] = .ok (.protoRelRsp []) ∧
    decode [52, 0x00, 0x01, 2, 0xAA] = .ok (.pcmpPort .relport [0xAA]) := by decide

/-- Byte 0, from R65 and R66: `N(S)` = 5 is 0000101 then 0; reserved 1010, kind, 01; 101101 then 11. -/
theorem test_decode_packet_and_code_classes :
    decode [53, 0x0A, 0x07] = .ok (.relInfo 5 [0x07]) ∧
    decode [54, 0xA1, 0x0D] = .ok (.relSupRr 0xA [0x0D]) ∧
    decode [55, 0xA5, 0x00] = .ok (.relSupRnr 0xA [0x00]) ∧
    decode [56, 0xA9, 0xFE] = .ok (.relSupRej 0xA [0xFE]) ∧
    decode [57, 0xAD] = .ok (.relSupKindUndefined 0xA []) ∧ decode [58, 0xB7] = .ok (.relUndefined 45 []) ∧
    decode [59, 0x00, 0x11] = .ok (.cobsCodeIllegal [0x11]) ∧
    decode [60, 0xFF, 0x11] = .ok (.cobsCodeFull [0x11]) ∧
    decode [61, 0x03, 0x11] = .ok (.cobsCodeShort 0x03 [0x11]) := by decide

theorem test_decode_refuses_by_name :
    decode [] = .error .empty ∧ decode [0] = .error (.unknownRow 0) ∧
    decode [62] = .error (.unknownRow 62) ∧ decode [27, 0, 0xC0] = .error .truncated ∧
    decode [36, 0] = .error .trailing ∧ decode [43, 0, 0, 0x2A] = .error .badSpace ∧
    decode [15, 3, 0, 0] = .error .badKind ∧ decode [38, 2] = .error .badBool ∧
    decode [15, 0, 0x80, 0] = .error .outOfRange ∧ decode [46, 0xC0, 0x22] = .error .patternMismatch ∧
    decode [28, 0x80, 0x00] = .error .nonCanonical ∧ decode [61, 0xFF] = .error .illFormed := by decide

theorem test_table_words :
    decodeTableWord 16 0xC021 = some (.protoLcp []) ∧ decodeTableWord 16 0xBA29 = some (.protoBeNcp []) ∧
    decodeTableWord 16 0x3A29 = some (.protoBeData []) ∧
    decodeTableWord 16 0xBA33 = some (.protoRelNcp []) ∧
    decodeTableWord 16 0x3A33 = some (.protoRelCmd []) ∧
    decodeTableWord 16 0x3A35 = some (.protoRelRsp []) ∧
    decodeTableWord 16 0x0001 = some (.pcmpPort .beport []) ∧ decodeTableWord 16 0x0002 = none := by decide

theorem test_table_bytes :
    decodeTableWord 8 0x55 = some .syncFlag ∧ decodeTableWord 8 0x00 = some (.cobsCodeIllegal []) ∧
    decodeTableWord 8 0xFF = some (.cobsCodeFull []) ∧
    decodeTableWord 8 0x0A = some (.relInfo 5 [0, 0, 0, 0, 0]) ∧
    decodeTableWord 8 0x01 = some (.relSupRr 0 [0]) ∧ decodeTableWord 8 0x05 = some (.relSupRnr 0 [0]) ∧
    decodeTableWord 8 0x09 = some (.relSupRej 0 [0]) ∧
    decodeTableWord 8 0x0D = some (.relSupKindUndefined 0 [0]) ∧
    decodeTableWord 8 0x03 = some (.relUndefined 0 [0]) ∧ decodeTableWord 0 0 = none := by decide

/-! ### Pure functions -/

theorem test_crc32_check_value_V2 :
    crc32 [0x31, 0x32, 0x33, 0x34, 0x35, 0x36, 0x37, 0x38, 0x39] = 0xCBF43926 := by decide +kernel
theorem test_crc32_V1_V3_V5 :
    crc32 [] = 0 ∧ crc32 [0, 0, 0, 0] = 0x2144DF1C ∧ crc32 [0x55] = 0xC9034AF6 := by decide +kernel
theorem test_fcsAppend_V9 : fcsAppend [0x55] = [0x55, 0xF6, 0x4A, 0x03, 0xC9] := by decide +kernel
theorem test_fcsCheck_V11_V13 : fcsCheck [0x55, 0xF6, 0x4A, 0x03, 0xC9] = .ok [0x55] ∧
    fcsCheck [0, 0, 0, 0] = .ok [] := by decide +kernel
theorem test_fcsCheck_V12_V14_V15 :
    fcsCheck [0x55, 0xF6, 0x4A, 0x03, 0xC8] = .error .corruptFrame ∧
    fcsCheck [0, 0, 0] = .error .corruptFrame ∧
    fcsCheck [0x55, 0xC9, 0x03, 0x4A, 0xF6] = .error .corruptFrame := by decide +kernel

theorem test_cobsEnc_V20_V26 :
    cobsEnc [] = [0x01] ∧ cobsEnc [0x00] = [0x01, 0x01] ∧ cobsEnc [0, 0] = [1, 1, 1] ∧
    cobsEnc [0x11, 0x22, 0x00, 0x33] = [0x03, 0x11, 0x22, 0x02, 0x33] ∧
    cobsEnc [0x11, 0, 0, 0] = [0x02, 0x11, 1, 1, 1] ∧ cobsEnc [0x00, 0x11] = [1, 2, 0x11] := by decide
theorem test_cobsEnc_V27_V30 :
    cobsEnc (List.replicate 254 1) = 0xFF :: List.replicate 254 1 ∧
    cobsEnc (List.replicate 254 1 ++ [0]) = 0xFF :: (List.replicate 254 1 ++ [1, 1]) ∧
    cobsEnc (List.replicate 255 1) = 0xFF :: (List.replicate 254 1 ++ [2, 1]) ∧
    cobsEnc (List.replicate 253 1 ++ [0]) = 0xFE :: (List.replicate 253 1 ++ [1]) := by decide +kernel
theorem test_cobsDec_V33_V34 :
    cobsDec [] = none ∧ cobsDec [0] = none ∧ cobsDec [1, 0] = none ∧ cobsDec [2, 0] = none ∧
    cobsDec [2] = none ∧ cobsDec [3, 0x11] = none ∧ cobsDec [5, 0x11, 0x22, 0x33] = none := by decide
theorem test_cobsDec_V35_V36 :
    cobsDec [1] = some [] ∧ cobsDec [1, 1] = some [0] ∧ cobsDec [2, 0x11, 1] = some [0x11, 0] ∧
    cobsDec (0xFF :: (List.replicate 254 1 ++ [1])) = some (List.replicate 254 1) := by decide +kernel
theorem test_swapOut_V37 : swapOut [0x02, 0x55, 0x01] = [0x02, 0x00, 0x01] := by decide
theorem test_swapIn_V38 : swapIn [0x02, 0x00, 0x01] = [0x02, 0x55, 0x01] := by decide

theorem test_encodeFrame_V42 :
    encodeFrame [0x55] = [0x55, 0x06, 0x00, 0xF6, 0x4A, 0x03, 0xC9, 0x55] := by decide +kernel
theorem test_encodeFrame_V47 : encodeFrame [0xC0, 0x21, 1, 0, 0, 4] =
    [0x55, 0x04, 0xC0, 0x21, 0x01, 0x01, 0x06, 0x04, 0xDF, 0x1A, 0x5A, 0xE3, 0x55] := by decide +kernel
theorem test_decodeFrame_V55_V60 :
    decodeFrame [0x06, 0x55, 0xF6, 0x4A, 0x03, 0xC9] = .error .decodeErrorFlagInFrame ∧
    decodeFrame [] = .error .decodeErrorMalformed ∧ decodeFrame [0x01] = .error .corruptFrame ∧
    decodeFrame [0x03, 0x11] = .error .decodeErrorMalformed ∧
    decodeFrame [1, 1, 1, 1, 1] = .ok [] := by decide +kernel

theorem test_encap_V80 : encap 0xC021 [1, 0, 0, 4] = [0xC0, 0x21, 1, 0, 0, 4] := by decide
theorem test_unencap_V83_V85 :
    unencap [0x3A, 0x29, 0x00, 0x2A, 0x00, 0x06, 0x68, 0x69] =
      .ok (0x3A29, [0x00, 0x2A, 0x00, 0x06, 0x68, 0x69]) ∧
    unencap [0xC0] = .error .datagramTooShort ∧ unencap [0xC0, 0x21] = .ok (0xC021, []) := by decide
theorem test_beBuild_V90 : beBuild 0x002A [0x68, 0x69] = some [0x00, 0x2A, 0x00, 0x06, 0x68, 0x69] := by
  decide
theorem test_beParse_V93_V95 :
    beParse [0x00, 0x2A, 0x00, 0x06, 0x68, 0x69, 0, 0] = .ok (0x002A, [0x68, 0x69]) ∧
    beParse [0x00, 0x2A, 0x00, 0x03] = .error .bePacketMalformed ∧
    beParse [0x00, 0x2A, 0x00, 0x07, 0x68, 0x69] = .error .bePacketMalformed ∧
    beParse [0x00, 0x2A, 0x00] = .error .bePacketMalformed := by decide
theorem test_relBuildInfo_V70_V71 :
    relBuildInfo 5 3 1 0x1234 [0xAA, 0xBB] = some [0x0A, 0x07, 0x12, 0x34, 0x00, 0x08, 0xAA, 0xBB] ∧
    relBuildInfo 127 127 1 0x0001 [] = some [0xFE, 0xFF, 0x00, 0x01, 0x00, 0x06] := by decide
theorem test_relBuildSup_V73 :
    relBuildSup .rr 6 1 = [0x01, 0x0D] ∧ relBuildSup .rnr 0 0 = [0x05, 0x00] ∧
    relBuildSup .rej 127 0 = [0x09, 0xFE] := by decide

/-- An instance of the block with concrete parameters, `REL_RESERVED_STRICT` as given. -/
def smallParams (strict : Bool) : Params :=
  { maxFrameLen := 4, linkMtuReset := 500, queueDepth := none, relReservedStrict := strict }

theorem test_relParse_V74_V76 :
    relParse params [0x0A, 0x07, 0x12, 0x34, 0x00, 0x08, 0xAA, 0xBB] =
      .ok (.info 5 3 1 0x1234 [0xAA, 0xBB]) ∧
    relParse (smallParams true) [0x01, 0x0D, 0x99] = .ok (.sup .rr 6 1) ∧
    relParse (smallParams true) [0x09, 0xFE] = .ok (.sup .rej 127 0) := ⟨rfl, by decide, by decide⟩
theorem test_relParse_V77_V78 :
    relParse params [0x03, 0x00] = .error .relPacketMalformed ∧
    relParse (smallParams false) [0x0D, 0x00] = .error .relPacketMalformed ∧
    relParse (smallParams true) [0x11, 0x00] = .error .relPacketMalformed ∧
    relParse (smallParams false) [0x11, 0x00] = .ok (.sup .rr 0 0) := ⟨rfl, by decide, by decide, by decide⟩

/-! ### Small states -/

/-- An open socket. -/
def openSock (space : Space) (key : U16) (queue : List Bytes) : Socket :=
  { space := space, key := key, closed := false, queue := queue }

/-- A closed socket. -/
def closedSock (space : Space) (key : U16) : Socket :=
  { space := space, key := key, closed := true, queue := [] }

/-- Collecting `buf`, link MTU 10, socket 0 of 0xC021 with one payload, the switch attached with socket 1 at
port 0x002A, socket 2 at reliable port 0x1234, socket 3 closed. -/
def live (buf : Bytes) : State :=
  { State.reset with
    mode := .collect, buf := buf, linkMtu := 10, capEn := true
    proto := [(0x3A29, .beSwitch), (0xC021, .raw 0)], beport := [(0x002A, 1)], relport := [(0x1234, 2)]
    sock := [(0, openSock .proto 0xC021 [[0x09]]), (1, openSock .beport 0x002A []),
      (2, openSock .relport 0x1234 []), (3, closedSock .proto 0xBA29)]
    nextSid := 4, rxbIn := [0x07], sched := [.rxb] }

/-- Nothing bound, splitter idle, link MTU 500. -/
def idle : State := { State.reset with linkMtu := 500 }

/-- After `IF_CLOSE`, with socket 0 closed. -/
def shut : State := { idle with ifOpen := false, sock := [(0, closedSock .proto 0xC021)], nextSid := 1 }

/-- The next state of an outcome. -/
def after : Out → Option State
  | .next s => some s
  | .fault _ => none
  | .refused _ => none

/-! ### The FrameSplitter (V62 to V69) -/

theorem test_rxByte_V62_V63 :
    rxByteOp (smallParams true) 0x41 idle = idle ∧
    (rxByteOp (smallParams true) 0x55 idle).mode = .collect := by decide
theorem test_collectData_V66 :
    (rxByteOp (smallParams true) 0x04 (live [1, 2, 3])).buf = [1, 2, 3, 4] := by decide
theorem test_collectOverflow_V67 :
    (rxByteOp (smallParams true) 0x05 (live [1, 2, 3, 4])).buf = [] ∧
    (rxByteOp (smallParams true) 0x05 (live [1, 2, 3, 4])).mode = .waitSync ∧
    (rxByteOp (smallParams true) 0x05 (live [1, 2, 3, 4])).diag = [⟨0x01, none⟩] := by decide
theorem test_flagEmpty_V64 : (after (exec .flagEmpty (live []))) = some (live []) := by decide
theorem test_flagFrame_V68 :
    (after (exec .flagFrame (live [0x06, 0x00, 0xF6, 0x4A, 0x03, 0xC9]))).map (fun t => (t.diag, t.cap, t.buf))
      = some ([⟨0x05, some 1⟩], [[0x00, 0x55]], []) := by decide +kernel
theorem test_rxIgnored_V69 : after (exec (.rxByte 0x55) shut) = some shut := by decide
/-- P1: the frame of V48 delivers its payload. -/
theorem test_rxFrame_P1 :
    (after (exec (.rxFrame [0x04, 0xC0, 0x21, 0x02, 0x01, 0x06, 0x04, 0x31, 0xB5, 0xEF, 0xF1]) (live []))).map
      (fun t => (Store.find 0 t.sock).map (·.queue)) = some (some [[0x09], [2, 0, 0, 4]]) := by decide +kernel
/-- P2: one flipped bit is reported, and nothing is captured. -/
theorem test_rxFrame_P2_corrupt :
    (after (exec (.rxFrame [0x05, 0xC0, 0x21, 0x09, 0x01, 0x02, 0x08, 0x01, 0x01, 0x01, 0x05, 0x7A, 0x8F, 0xB8,
      0x73]) (live []))).map (fun t => (t.diag, t.cap)) = some ([⟨0x04, none⟩], []) := by decide +kernel
/-- R112: two chunks offer their bytes in order, with one turn for each. -/
theorem test_rxChunk_offers_bytes_and_turns :
    (after (exec (.rxChunk [0x01, 0x55]) { idle with rxbIn := [0x55], sched := [.cmd] })).map
      (fun t => (t.rxbIn, t.sched)) = some ([0x55, 0x01, 0x55], [.cmd, .rxb, .rxb]) := by decide

/-! ### The switch (programs P1, P3, P5) -/

theorem test_bind_gives_the_next_id :
    (after (exec (.bind .proto 0xBA29) (live []))).map
      (fun t => (t.cmdOut, Store.find 0xBA29 t.proto, t.nextSid)) =
      some ([.okSid 4], some (.raw 4), 5) := by decide
theorem test_bind_P3_not_attached :
    (after (exec (.bind .beport 0x002A) idle)).map (·.cmdOut) = some [.err .notAttached] ∧
    (after (exec (.bind .proto 0xC021) (live []))).map (·.cmdOut) = some [.err .alreadyBound] := by decide
theorem test_close_P1 :
    (after (exec (.close 0) (live []))).map (fun t => (Store.find 0 t.sock, Store.find 0xC021 t.proto)) =
      some (some (closedSock .proto 0xC021), none) ∧
    (after (exec (.close 5) (live []))).map (·.cmdOut) = some [.err .noSuchSocket] := by decide
theorem test_send_P1_frame :
    (after (exec (.send 0 [1, 0, 0, 4]) (live []))).map (·.txb) =
      some [0x55, 0x04, 0xC0, 0x21, 0x01, 0x01, 0x06, 0x04, 0xDF, 0x1A, 0x5A, 0xE3, 0x55] := by decide +kernel
theorem test_beSend_P3_frame :
    (after (exec (.beSend 1 [0x68, 0x69]) (live []))).map (·.txb) =
      some [0x55, 0x03, 0x3A, 0x29, 0x02, 0x2A, 0x08, 0x06, 0x68, 0x69, 0xD7, 0x9F, 0xBC, 0x3D, 0x55] := by
  decide +kernel
theorem test_beSend_P3_too_long :
    (after (exec (.beSend 1 [1, 2, 3, 4, 5, 6, 7]) (live []))).map (·.cmdOut) =
      some [.err .payloadTooLong] := by decide
theorem test_relSend_P5 :
    (after (exec (.relSend 2 [0x00]) (live []))).map (·.cmdOut) = some [.err .notSupported] := by decide
theorem test_recv_P1 :
    (after (exec (.recv 0) (live []))).map (fun t => (t.rcvOut, (Store.find 0 t.sock).map (·.queue))) =
      some ([.okBytes [0x09]], some []) ∧
    (after (exec (.recv 3) (live []))).map (·.rcvOut) = some [.err .socketClosed] ∧
    (after (exec (.recv 1) (live []))).map (·.rcvOut) = some [.err .receiveQueueEmpty] := by decide
theorem test_dispatch_P2_unregistered :
    (after (exec (.dispatch 0x8021 [0x01]) (live []))).map (·.diag) = some [⟨0x06, some 0x8021⟩] := by decide
theorem test_enqueue_stops_on_a_closed_socket :
    exec (.enqueue 3 [0x01]) (live []) = .fault (.socketNotOpen 3) := rfl
/-- R123: a finite depth drops the new payload. -/
theorem test_enqueue_finite_depth :
    (enqueueOp { smallParams true with queueDepth := some 1 } 0 [2] (live [])).diag =
      [⟨0x0B, some 0⟩] := by decide
theorem test_ifClose_P5 :
    (after (exec .ifClose (live [1]))).map (fun t => (t.proto, t.beport, t.relport)) = some ([], [], []) ∧
    (after (exec .ifClose (live [1]))).map (fun t => (t.ifOpen, t.bsClosed)) = some (false, 1) ∧
    (after (exec .ifClose shut)).map (·.bsClosed) = some 0 := by decide
theorem test_setMtu_V_BE_MTU : beMtu { idle with linkMtu := 0x01F4 } = 496 ∧
    beMtu { idle with linkMtu := 3 } = 0 ∧ beMtu { idle with beSimplex := true } = 0 := by decide
theorem test_reset_keeps_histories :
    (after (exec .reset { live [1] with txb := [0x55], bsClosed := 1 })).map
      (fun t => (t.txb, t.bsClosed, t.sock, t.ifOpen)) = some ([0x55], 1, [], true) := by decide
theorem test_tpAttach_P3 :
    (after (exec (.tpAttach true) idle)).map (fun t => (t.proto, t.beSimplex)) =
      some ([(0x3A29, .beSwitch)], true) ∧
    (after (exec (.tpAttach true) (live []))).map (·.beSimplex) = some false := by decide
theorem test_tpDetach_P3 :
    (after (exec .tpDetach (live []))).map (fun t => (t.proto, t.beport, Store.find 1 t.sock)) =
      some ([(0xC021, .raw 0)], [], some (closedSock .beport 0x002A)) := by decide
theorem test_beDemux_P3 :
    (after (exec (.beDemux [0x00, 0x2A, 0x00, 0x05, 0x77, 0, 0, 0]) (live []))).map
      (fun t => (Store.find 1 t.sock).map (·.queue)) = some (some [[0x77]]) ∧
    (after (exec (.beDemux [0x00, 0x2A, 0x00, 0x09, 1, 2]) (live []))).map (·.diag) =
      some [⟨0x07, some 6⟩] := by decide
theorem test_portDeliver_P3 :
    (after (exec (.portDeliver .beport 0x002B [0x77]) (live []))).map (·.diag) =
      some [⟨0x08, some 0x002B⟩] := by decide
theorem test_portForceClose_P3 :
    (after (exec (.portForceClose .relport 0x002A) (live []))).map (·.sock) = some (live []).sock ∧
    (after (exec (.portForceClose .beport 0x002A) (live []))).map
      (fun t => (t.beport, Store.find 1 t.sock)) = some ([], some (closedSock .beport 0x002A)) := by decide
theorem test_relDeliver_P5 :
    (after (exec (.relDeliver 0x1234 [0xAA, 0xBB]) (live []))).map
      (fun t => (Store.find 2 t.sock).map (·.queue)) = some (some [[0xAA, 0xBB]]) ∧
    (after (exec (.relDeliver 0x1235 [0xCC]) (live []))).map (fun t => (t.diag, t.cmdOut)) =
      some ([⟨0x09, some 0x1235⟩], [.ok]) := by decide
theorem test_pcmpPort_is_any_port :
    (after (exec (.pcmpPort .relport [0x01]) (live []))).map (·.diag) = some [⟨0x09, some 1⟩] := by decide
theorem test_withFetchWord_runs_the_word :
    (after (step (State.withFetchWord idle 16 0xC021))).map (·.diag) =
      some [⟨0x06, some 0xC021⟩] := by decide

/-! ### Witnesses

For each statement of Certificates/Slice0/Obligations.lean that has hypotheses, a state and operands that meet
them together, clause by clause, at the boundary of a clause's range where it has one. -/

/-- `live` with `k` as its only socket, open at 0xC021. -/
def oneSocket (queue : List Bytes) : State := { live [] with sock := [(0, openSock .proto 0xC021 queue)] }

/-- An instance whose frames hold at most seven bytes of contents. -/
def sevenParams : Params := { smallParams true with maxFrameLen := 7 }

theorem key_eq {n : Nat} {key : U16} (hn : n < 65536) (h : n = key.toNat) : key = BitVec.ofNat 16 n := by
  apply BitVec.eq_of_toNat_eq; simp [← h, Nat.mod_eq_of_lt hn]

/-- The invariants of R32 in a state with everything bound. -/
theorem test_witness_Inv_live : Inv params (live [0x06]) where
  wf := by decide
  buf := ⟨Nat.succ_le_succ (Nat.zero_le _), by decide, by decide⟩
  entriesOpen := by
    intro sp key sid h
    cases sp <;> simp only [entryIs, live, Store.find] at h
    · split at h
      · cases h
      · split at h
        · next hk => cases h; exact ⟨_, rfl, rfl, (key_eq (by decide) hk).symm, rfl⟩
        · cases h
    · split at h
      · next hk => cases h; exact ⟨_, rfl, rfl, (key_eq (by decide) hk).symm, rfl⟩
      · cases h
    · split at h
      · next hk => cases h; exact ⟨_, rfl, rfl, (key_eq (by decide) hk).symm, rfl⟩
      · cases h
  openEntered := by
    intro sid k h hc
    have uniq : ∀ (sp : Space) (key : U16) (a : SockId), entryIs sp key a (live [0x06]) →
        (a = 0 ∧ sp = .proto ∧ key = 0xC021) ∨ (a = 1 ∧ sp = .beport ∧ key = 0x002A) ∨
        (a = 2 ∧ sp = .relport ∧ key = 0x1234) := by
      intro sp key a h
      cases sp <;> simp only [entryIs, live, Store.find] at h
      · split at h
        · cases h
        · split at h
          · next hk => cases h; exact Or.inl ⟨rfl, rfl, key_eq (by decide) hk⟩
          · cases h
      · split at h
        · next hk => cases h; exact Or.inr (Or.inl ⟨rfl, rfl, key_eq (by decide) hk⟩)
        · cases h
      · split at h
        · next hk => cases h; exact Or.inr (Or.inr ⟨rfl, rfl, key_eq (by decide) hk⟩)
        · cases h
    simp only [live, Store.find] at h
    split at h
    · next hs =>
      subst hs; cases h
      exact ⟨rfl, fun sp key he => by rcases uniq sp key 0 he with h | h | h <;> simp_all [openSock]⟩
    · split at h
      · next hs =>
        subst hs; cases h
        exact ⟨rfl, fun sp key he => by rcases uniq sp key 1 he with h | h | h <;> simp_all [openSock]⟩
      · split at h
        · next hs =>
          subst hs; cases h
          exact ⟨rfl, fun sp key he => by rcases uniq sp key 2 he with h | h | h <;> simp_all [openSock]⟩
        · split at h
          · cases h; cases hc
          · cases h
  switchPlace := by
    intro n h
    simp only [live, Store.find] at h
    split at h
    · next hk => exact hk.symm
    · split at h <;> cases h
  portsNeedSwitch := by intro h; exact absurd h (by decide)
  sidsBelow := by
    intro sid h
    simp only [live, Store.has, Store.find] at h ⊢
    split at h <;> [omega; split at h <;> [omega; split at h <;> [omega; split at h <;> [omega; cases h]]]]
  closedQuiet := by intro h; cases h
  closedEmpty := by
    intro sid k h hc
    simp only [live, Store.find] at h
    repeat' split at h
    all_goals cases h
    all_goals first | rfl | cases hc
  queuesBounded := by intro d h; cases h

/-- The invariants of R32 on a closed interface. -/
theorem test_witness_Inv_shut : Inv params shut where
  wf := by decide
  buf := ⟨Nat.zero_le _, by decide, by decide⟩
  entriesOpen := by intro sp key sid h; cases sp <;> simp [entryIs, shut, idle, State.reset] at h
  openEntered := by
    intro sid k h hc
    simp only [shut, Store.find] at h
    split at h
    · cases h; cases hc
    · cases h
  switchPlace := by intro n h; simp [shut, idle, State.reset] at h
  portsNeedSwitch := fun _ => rfl
  sidsBelow := by
    intro sid h
    simp only [shut, Store.has, Store.find] at h ⊢
    split at h <;> [omega; cases h]
  closedQuiet := by
    intro _
    refine ⟨rfl, rfl, rfl, rfl, rfl, ?_⟩
    intro sid k h
    simp only [shut, Store.find] at h
    split at h
    · cases h; rfl
    · cases h
  closedEmpty := by
    intro sid k h _
    simp only [shut, Store.find] at h
    split at h
    · cases h; rfl
    · cases h
  queuesBounded := by intro d h; cases h

theorem test_witness_DecodeReadsBackEveryEncoding :
    (Instr.cobsCodeShort 0xFE [0x01]).wf = true ∧ (Instr.rxFrame [0x00]).wf = true := by decide

theorem test_witness_AcceptedRecordsAreCanonical : decode [30, 0xAC, 0x02, 0x07] = .ok (.enqueue 300 [0x07]) := by
  decide

theorem test_witness_StepRunsTheDecodedInstruction :
    ((live []).sched = [.rxb] ∧ (live []).rxbIn = [0x07]) ∧
    (∃ s : State, s.sched = [.cmd] ∧ s.cmdIn = [[36]] ∧ decode [36] = .ok .ifClose ∧
      Instr.ifClose.issuable = true) ∧
    (∃ s : State, s.sched = [.bench] ∧ s.benchIn = [[22, 0x55]] ∧ decode [22, 0x55] = .ok .flagFrame) ∧
    (∃ s : State, s.sched = [.cmd] ∧ s.cmdIn = [[22, 0x55]] ∧ decode [22, 0x55] = .ok .flagFrame ∧
      Instr.flagFrame.issuable = false) ∧
    (∃ s : State, s.sched = [.cmd] ∧ s.cmdIn = [[0]] ∧ decode [0] = .error (.unknownRow 0)) ∧
    decodeTableWord 16 0xC021 = some (.protoLcp []) :=
  ⟨⟨rfl, rfl⟩, ⟨{ idle with sched := [.cmd], cmdIn := [[36]] }, rfl, rfl, rfl, rfl⟩,
    ⟨{ idle with sched := [.bench], benchIn := [[22, 0x55]] }, rfl, rfl, rfl⟩,
    ⟨{ idle with sched := [.cmd], cmdIn := [[22, 0x55]] }, rfl, rfl, rfl, rfl⟩,
    ⟨{ idle with sched := [.cmd], cmdIn := [[0]] }, rfl, rfl, rfl⟩, by decide⟩

theorem test_witness_IdleStepChangesNothing :
    idle.sched = [] ∧
    (∃ s : State, s.sched = [.rxb] ∧ s.rxbIn = []) ∧ (∃ s : State, s.sched = [.cmd] ∧ s.cmdIn = []) ∧
    ∃ s : State, s.sched = [.bench] ∧ s.benchIn = [] :=
  ⟨rfl, ⟨{ idle with sched := [.rxb] }, rfl, rfl⟩, ⟨{ idle with sched := [.cmd] }, rfl, rfl⟩,
    ⟨{ idle with sched := [.bench] }, rfl, rfl⟩⟩

/-- For `EveryStepKeepsTheNineInvariants`, `FaultingStepOnlyReports` and `OutputHistoriesOnlyGrow`. -/
theorem test_witness_steps_from_a_live_state :
    Inv params (live [0x06]) ∧ ∃ t, step (live [0x06]) = .next t := ⟨test_witness_Inv_live, _, rfl⟩

theorem test_witness_ResetAloneRestoresTheResetState :
    (∃ t, exec (.setCap true) shut = .next t) ∧ Instr.setCap true ≠ .reset ∧ shut.ifOpen = false ∧
    Store.find 0 shut.sock ≠ none := ⟨⟨_, rfl⟩, by decide, rfl, by decide⟩

/-- For `FcsIsAppendedLittleEndianAndChecked` and `FcsCheckAcceptsExactlyFcsAppend`. -/
theorem test_witness_FcsCheck : ([0, 0, 0] : Bytes).length < 4 ∧
    fcsCheck [0x55, 0xF6, 0x4A, 0x03, 0xC9] = .ok [0x55] := by decide +kernel

theorem test_witness_CobsEncAnswersTheGroups : ZeroFree [[0x11, 0x22], [0x33]] ∧ ZeroFree [[]] :=
  ⟨⟨by decide, by decide⟩, by decide, by decide⟩

theorem test_witness_CobsEncIsZeroFreeAndBounded :
    ZeroFree ([[0x11]] ++ [List.replicate 254 0x01]) ∧ ([0x00] : Bytes) ≠ [] ∧
    (ZeroFree [List.replicate 253 0x01, []] ∧
      ∀ x ∈ ([List.replicate 253 0x01, []] : List Bytes), x.length < 254) ∧
    (([0x01] : Bytes) ≠ [] ∧ (0 : Byte) ∉ ([0x01] : Bytes)) ∧ cobsEnc [0x07] = cobsEnc [0x07] :=
  ⟨⟨by decide, by decide +kernel⟩, by decide, ⟨⟨by decide, by decide +kernel⟩, by decide +kernel⟩, by decide, rfl⟩

theorem test_witness_CobsDecInvertsCobsEnc :
    cobsDec [0x02, 0x11, 0x01] = some [0x11, 0x00] ∧ EndsFull (List.replicate 254 0x01) :=
  ⟨by decide, [], List.replicate 254 0x01, ⟨by decide, by decide +kernel⟩, by decide +kernel, by decide +kernel,
    by decide +kernel⟩

theorem test_witness_CobsCodeRowsTakeTheirGroup :
    ((0x01 : Byte) ≠ 0x00 ∧ (0x01 : Byte) ≠ 0xFF ∧ ([] : Bytes).length = (0x01 : Byte).toNat - 1) ∧
    ((0xFE : Byte) ≠ 0x00 ∧ (0xFE : Byte) ≠ 0xFF ∧
      (List.replicate 253 (0x01 : Byte)).length = (0xFE : Byte).toNat - 1) ∧
    ((0x02 : Byte) ≠ 0x00 ∧ (0x02 : Byte) ≠ 0xFF ∧ ([] : Bytes).length < (0x02 : Byte).toNat - 1) ∧
    (List.replicate 254 (0x01 : Byte)).length = 254 ∧ (List.replicate 253 (0x01 : Byte)).length < 254 := by
  decide +kernel

theorem test_witness_SwapsAreInverseBytewiseMaps :
    (0 : Byte) ∉ ([0x02, 0x55, 0x01] : Bytes) ∧ (0x55 : Byte) ∉ ([0x02, 0x00, 0x01] : Bytes) ∧
    2 < ([0x02, 0x55, 0x01] : Bytes).length := by decide

theorem test_witness_DecodeFrameReportsTheFirstFailure :
    (0x55 : Byte) ∈ ([0x55] : Bytes) ∧
    ((0x55 : Byte) ∉ ([] : Bytes) ∧ cobsDec (swapIn []) = none) ∧
    (0x55 : Byte) ∉ ([1, 1, 1, 1, 1] : Bytes) ∧ cobsDec (swapIn [1, 1, 1, 1, 1]) = some [0, 0, 0, 0] := by
  decide

/-- Two strings that differ in the first and last bit of a burst of 32 that begins at bit 3. -/
theorem test_witness_Crc32IsLinearAndDetectsBursts :
    ([0x08, 0, 0, 0, 0x04] : Bytes).length = ([0, 0, 0, 0, 0] : Bytes).length ∧
    ([0x08, 0, 0, 0, 0x04] : Bytes) ≠ [0, 0, 0, 0, 0] ∧
    (∀ i < 3, streamBit [0x08, 0, 0, 0, 0x04] i = streamBit [0, 0, 0, 0, 0] i) ∧
    ∀ i : Nat, 3 + 32 ≤ i →
      streamBit [0x08, 0, 0, 0, 0x04] i = streamBit [0, 0, 0, 0, 0] i := by
  refine ⟨rfl, by decide, by decide, fun i hi => ?_⟩
  by_cases h : i < 40
  · interval_cases i <;> rfl
  · obtain ⟨j, hj⟩ : ∃ j, i / 8 = j + 5 := ⟨i / 8 - 5, by omega⟩
    simp [streamBit, hj]

/-- The contents of this frame fill the buffer exactly; from either mode. -/
theorem test_witness_FrameRoundTripsThroughTheStream :
    idle.ifOpen = true ∧ idle.buf = [] ∧ (live []).ifOpen = true ∧ (live []).buf = [] ∧
    (encodeFrame [0xC0, 0x21]).length - 2 = sevenParams.maxFrameLen := by decide +kernel

theorem test_witness_SentFrameDeliversItsPayload :
    (live []).ifOpen = true ∧ (live []).buf = [] ∧ sevenParams.queueDepth = none ∧
    (encodeFrame (encap 0xC021 [])).length - 2 ≤ sevenParams.maxFrameLen ∧
    Store.find (0xC021 : U16).toNat (live []).proto = some (.raw 0) := by decide +kernel

theorem test_witness_DatagramHeaderIsTwoBigEndianBytes :
    ([0xC0] : Bytes).length < 2 ∧ 2 ≤ ([0xC0, 0x21] : Bytes).length ∧
    unencap [0xC0, 0x21] = .ok (0xC021, []) := by decide

/-- For `BestEffortPacketsAreBuiltAndParsed`, `RelParseClassifiesByByte0` and
`ReliableByte0RowsAnswerLikeRelParse`. -/
theorem test_witness_packets :
    ([0x00, 0x2A, 0x00] : Bytes).length < 4 ∧ ([0x01] : Bytes).length < 2 ∧
    (2 ≤ ([0x0A, 0x07, 0x12, 0x34, 0x00] : Bytes).length ∧
      ([0x0A, 0x07, 0x12, 0x34, 0x00] : Bytes).length < 6 ∧
      (([0x0A, 0x07, 0x12, 0x34, 0x00] : Bytes).getD 0 0).toNat % 2 = 0) ∧
    (0x0A : Byte).toNat % 2 = 0 ∧ (0x0D : Byte).toNat % 2 = 1 ∧
    ([0x07, 0x12, 0x34, 0x00] : Bytes).length < 5 := by decide

theorem test_witness_ParsersReadBackBuiltPackets :
    beBuild 0x0001 [] = some [0x00, 0x01, 0x00, 0x04] ∧
    relBuildInfo 0 0 0 0x0000 [] = some [0, 0, 0, 0, 0, 6] := by decide

theorem test_witness_ReceivedByteSelectsOneCase : BufInv params (live [0x06]) := test_witness_Inv_live.buf

/-- A buffer with room for one byte more, and a full one, whatever `MAX_FRAME_LEN` is. -/
theorem test_witness_BytesSyncAreStoredOrOverflow :
    shut.ifOpen = false ∧ (idle.ifOpen = true ∧ idle.mode = .waitSync ∧ (0x41 : Byte) ≠ 0x55) ∧
    (∀ buf, (live buf).ifOpen = true ∧ (live buf).mode = .collect) ∧
    (live (List.replicate Config.maxFrameLenPred 0x41)).buf.length < params.maxFrameLen ∧
    (live (List.replicate params.maxFrameLen 0x41)).buf.length = params.maxFrameLen :=
  ⟨rfl, by decide, fun _ => ⟨rfl, rfl⟩, by simp [live, params], by simp [live]⟩

theorem test_witness_FlagEndsAFrame :
    ((live []).ifOpen = true ∧ (live []).mode = .collect ∧ (live []).buf = []) ∧
    (live [0x06]).ifOpen = true ∧ (live [0x06]).mode = .collect ∧ (live [0x06]).buf ≠ [] := by decide

theorem test_witness_RxFrameDecodesCapturesDispatches :
    ((0x55 : Byte) ∉ ([0x03, 0x11] : Bytes) ∧ cobsDec (swapIn [0x03, 0x11]) = none) ∧
    ((0x55 : Byte) ∉ ([0x01] : Bytes) ∧ cobsDec (swapIn [0x01]) = some [] ∧ ([] : Bytes).length < 4) ∧
    (decodeFrame [0x06, 0x00, 0xF6, 0x4A, 0x03, 0xC9] = .ok [0x55] ∧ ([0x55] : Bytes).length < 2) ∧
    decodeFrame [0x07, 0xC0, 0x21, 0xEF, 0xD5, 0x4A, 0xC6] = .ok [0xC0, 0x21] := by decide +kernel

/-- The frame fills the buffer exactly; the noise stops inside a frame. -/
theorem test_witness_FrameAfterTheNextFlagIsReceived :
    (live [0x41]).ifOpen = true ∧
    ((live [0x41]).buf.length ≤ sevenParams.maxFrameLen ∧ flag ∉ (live [0x41]).buf) ∧
    (live [0x41]).mode = .collect ∧
    (encodeFrame [0xC0, 0x21]).length - 2 ≤ sevenParams.maxFrameLen := by decide +kernel

theorem test_witness_ChunksAreSuccessiveBytes : idle.rxbIn = [] ∧ idle.sched = [] := by decide

theorem test_witness_BindRegistersOneNewSocket :
    shut.ifOpen = false ∧ (idle.ifOpen = true ∧ Store.find 0x3A29 idle.proto ≠ some .beSwitch) ∧
    ((live []).ifOpen = true ∧ Store.find 0x3A29 (live []).proto = some .beSwitch ∧
      bound .beport 0x002A (live []) = true) ∧
    bound .beport 0xFFFF (live []) = false ∧ bound .proto 0x0000 (live []) = false := by decide

theorem test_witness_CloseUnregistersTheSocket :
    Store.find 4 (live []).sock = none ∧ Store.find 3 (live []).sock = some (closedSock .proto 0xBA29) ∧
    Store.find 1 (live []).sock = some (openSock .beport 0x002A []) := by decide

/-- For `DispatchRoutesByTheRegistry` and `AssignedNumbersAreRoutedLikeAnyOther`. -/
theorem test_witness_DispatchRoutesByTheRegistry :
    Store.find (0xBA29 : U16).toNat (live []).proto = none ∧
    Store.find (0xC021 : U16).toNat (live []).proto = some (.raw 0) ∧
    Store.find (0x3A29 : U16).toNat (live []).proto = some .beSwitch ∧
    Store.find 1 (live []).beport = none ∧ Store.find 1 (live []).relport = none ∧
    ∃ s : State, Store.find 1 s.beport = some 1 ∧ Store.find 1 s.relport = some 2 :=
  ⟨rfl, rfl, rfl, rfl, rfl, { live [] with beport := [(1, 1)], relport := [(1, 2)] }, rfl, rfl⟩

theorem test_witness_EnqueuePushesOnOpenSockets :
    (Store.find 0 (live []).sock = some (openSock .proto 0xC021 [[0x09]]) ∧
      (openSock .proto 0xC021 [[0x09]]).closed = false) ∧
    ∀ k, Store.find 3 (live []).sock = some k → k.closed = true :=
  ⟨⟨rfl, rfl⟩, fun k h => by cases h; rfl⟩

theorem test_witness_SendIsRefusedOrSendsByTheSocketsSpace :
    Instr.relSend 2 [] ∈ [Instr.send 2 [], .beSend 2 [], .relSend 2 []] ∧
    Store.find 4 (live []).sock = none ∧ Store.find 3 (live []).sock = some (closedSock .proto 0xBA29) ∧
    Store.find 0 (live []).sock = some (openSock .proto 0xC021 [[0x09]]) ∧
    Store.find 2 (live []).sock = some (openSock .relport 0x1234 []) ∧ (live []).ifOpen = true ∧
    ∃ s : State, s.ifOpen = false ∧ Store.find 0 s.sock = some (openSock .proto 0xC021 [[0x09]]) :=
  ⟨by decide, rfl, rfl, rfl, rfl, rfl, { live [] with ifOpen := false }, rfl, rfl⟩

/-- `BE_MTU` is 6 here: six bytes are sent and seven are refused. -/
theorem test_witness_SendOnABestEffortPort :
    Store.find 1 (live []).sock = some (openSock .beport 0x002A []) ∧ (live []).ifOpen = true ∧
    Store.find 0x3A29 (live []).proto = some .beSwitch ∧ (live []).beSimplex = false ∧
    (live []).linkMtu.toNat - 4 < ([1, 2, 3, 4, 5, 6, 7] : Bytes).length ∧
    ([1, 2, 3, 4, 5, 6] : Bytes).length ≤ (live []).linkMtu.toNat - 4 ∧
    (∃ s : State, s.ifOpen = true ∧ Store.find 0x3A29 s.proto ≠ some .beSwitch ∧
      Store.find 1 s.sock = some (openSock .beport 0x002A [])) ∧
    ∃ s : State, s.ifOpen = true ∧ Store.find 0x3A29 s.proto = some .beSwitch ∧ s.beSimplex = true ∧
      Store.find 1 s.sock = some (openSock .beport 0x002A []) :=
  ⟨rfl, rfl, rfl, rfl, by decide, by decide, ⟨{ live [] with proto := [] }, rfl, by decide, rfl⟩,
    { live [] with beSimplex := true }, rfl, rfl, rfl, rfl⟩

theorem test_witness_RecvTakesTheOldestPayload :
    Store.find 4 (live []).sock = none ∧ Store.find 3 (live []).sock = some (closedSock .proto 0xBA29) ∧
    Store.find 1 (live []).sock = some (openSock .beport 0x002A []) ∧
    Store.find 0 (live []).sock = some (openSock .proto 0xC021 [[0x09]]) := by decide

theorem test_witness_QueueIsFirstInFirstOut :
    Store.find (0xC021 : U16).toNat (oneSocket []).proto = some (.raw 0) ∧
    Store.find 0 (oneSocket []).sock = some (openSock .proto 0xC021 []) := by decide

/-- For `InterfaceCloseCascades` and `DetachClosesEveryBestEffortPort`. -/
theorem test_witness_InterfaceCloseCascades :
    shut.ifOpen = false ∧ Inv params (live [0x06]) ∧ (live [0x06]).ifOpen = true ∧
    Store.find 0x3A29 (live [0x06]).proto = some .beSwitch ∧ Store.find 0x3A29 idle.proto ≠ some .beSwitch :=
  ⟨rfl, test_witness_Inv_live, rfl, rfl, by decide⟩

theorem test_witness_ClosedInterfaceIsDeaf :
    Inv params shut ∧ shut.ifOpen = false ∧ Store.find 0 shut.sock ≠ none :=
  ⟨test_witness_Inv_shut, rfl, by decide⟩

theorem test_witness_CaptureTapCopiesIntactDatagrams :
    (decodeFrame [0x03, 0x11] = .error .decodeErrorMalformed ∧
      ∃ t, exec (.rxFrame [0x03, 0x11]) (live []) = .next t) ∧
    (decodeFrame [1, 1, 1, 1, 1] = .ok [] ∧ (live []).capEn = true) ∧
    shut.capEn = false ∧ ∃ t, step shut = .next t :=
  ⟨⟨by decide, _, rfl⟩, ⟨by decide +kernel, rfl⟩, rfl, _, rfl⟩

theorem test_witness_AttachBindsTheSwitch :
    shut.ifOpen = false ∧ ((live []).ifOpen = true ∧ Store.find 0x3A29 (live []).proto ≠ none) ∧
    idle.ifOpen = true ∧ Store.find 0x3A29 idle.proto = none := by decide

/-- Three bytes; length 3 and length 7 of six; length 6 of six. -/
theorem test_witness_BeDemuxDeliversByPort :
    ([0x00, 0x2A, 0x00] : Bytes).length < 4 ∧ num16 0x00 0x03 < 4 ∧
    num16 0x00 0x07 > ([0x68, 0x69] : Bytes).length + 4 ∧
    4 ≤ num16 0x00 0x06 ∧ num16 0x00 0x06 ≤ ([0x68, 0x69] : Bytes).length + 4 := by decide

/-- For `PortDeliverMatchesThePort` and `PortForceCloseClosesTheBoundSocket`. -/
theorem test_witness_PortDeliverMatchesThePort :
    Store.find (0x1234 : U16).toNat (live []).beport = none ∧
    Store.find (0x002A : U16).toNat (live []).beport = some 1 ∧
    Store.find (0x002A : U16).toNat (live []).relport = none ∧
    Store.find (0x1234 : U16).toNat (live []).relport = some 2 ∧
    portEntry .beport 0x1234 (live []) = none ∧ portEntry .relport 0x1234 (live []) = some 2 ∧
    Store.find 2 (live []).sock ≠ none := by decide

theorem test_witness_PayloadsReachOnlyTheBoundSocket : SwitchPlace (live [0x06]) :=
  test_witness_Inv_live.switchPlace

end Sys2Proof.Tests
end

section
/-! The state after power-on reset (R33). -/

namespace Sys2Proof.Machine

/-- Settles O7 (R33): each element is a field of the literal `State.reset`, and `params` carries the open
constant LINK_MTU_RESET that the link MTU starts from. -/
theorem powerOnResetValues : Obligations.PowerOnResetValues :=
  have linkMtu : State.reset.linkMtu = params.linkMtuReset := rfl
  ⟨rfl, rfl, linkMtu, rfl, rfl, rfl, rfl, rfl, rfl, rfl, rfl, rfl, rfl, rfl, rfl⟩

end Sys2Proof.Machine
end

section
/-! CRC-32: the model's 32-bit register and the natural numbers of R80 hold the same value, bit by bit, byte by
byte and over a whole string. -/

namespace Sys2Proof.Machine

/-- `crcNat` tests the lowest bit and halves where `crcBit` reads bit 0 and shifts. -/
theorem toNat_crcBit (r : U32) : (crcBit r).toNat = crcNatBit r.toNat := by
  have lowBit : r.getLsbD 0 = true ↔ r.toNat % 2 = 1 := by
    simp [BitVec.getLsbD, Nat.testBit_zero]
  have half : (r >>> 1).toNat = r.toNat / 2 := by
    simp [Nat.shiftRight_eq_div_pow]
  unfold crcBit crcNatBit
  simp only [lowBit]
  split
  · rw [BitVec.toNat_xor, half]; rfl
  · exact half

theorem toNat_crcBits (n : Nat) (r : U32) : (crcBits n r).toNat = crcNatBit^[n] r.toNat := by
  induction n generalizing r with
  | zero => rfl
  | succ n ih => rw [crcBits, ih, toNat_crcBit, Function.iterate_succ_apply]

theorem toNat_crcByte (r : U32) (b : Byte) : (crcByte r b).toNat = crcNatByte r.toNat b := by
  have widen : (b.setWidth 32).toNat = b.toNat :=
    BitVec.toNat_setWidth_of_le (by decide)
  rw [crcByte, toNat_crcBits, BitVec.toNat_xor, widen, crcNatByte]

theorem toNat_crcRun (r : U32) (d : Bytes) : (crcRun r d).toNat = d.foldl crcNatByte r.toNat := by
  induction d generalizing r with
  | nil => rfl
  | cons b d ih =>
    calc (crcRun r (b :: d)).toNat
        = (crcRun (crcByte r b) d).toNat := rfl
      _ = d.foldl crcNatByte (crcByte r b).toNat := ih _
      _ = (b :: d).foldl crcNatByte r.toNat := by rw [toNat_crcByte, List.foldl_cons]

theorem toNat_crc32 (d : Bytes) : (crc32 d).toNat = crcNat d := by
  rw [crc32, BitVec.toNat_xor, toNat_crcRun]; rfl

theorem crcNat_lt (d : Bytes) : crcNat d < 2 ^ 32 :=
  toNat_crc32 d ▸ (crc32 d).isLt

theorem crc32_eq_ofNat_crcNat (d : Bytes) : crc32 d = BitVec.ofNat 32 (crcNat d) := by
  rw [← toNat_crc32, BitVec.ofNat_toNat, BitVec.setWidth_eq]

theorem exec_crc32 (d : Bytes) (s : State) :
    exec (.crc32 d) s = .next (replied (.word (crc32 d)) s) := rfl

/-- Settles O11 (R80): the register and the number agree after every bit (`toNat_crcBit`), so after the string. -/
theorem crc32AnswersTheCrcOfTheRule : Obligations.Crc32AnswersTheCrcOfTheRule := fun d s =>
  ⟨by rw [exec_crc32, crc32_eq_ofNat_crcNat], crcNat_lt d⟩

end Sys2Proof.Machine
end

section
/-! Zero-elimination stuffing: the model's recursions on what is left of a string agree with the closed form of
R90 and with the indexed loop of R92. -/

namespace Sys2Proof.Machine

/-! ### Cutting a string at its zero bytes -/

theorem segments_ne_nil (d : Bytes) : segments d ≠ [] := by
  cases d with
  | nil => simp [segments]
  | cons b d =>
    unfold segments
    split
    · simp
    · split <;> simp

theorem segments_zero_cons (d : Bytes) : segments (0 :: d) = [] :: segments d := by
  obtain ⟨x, ss, h⟩ := List.exists_cons_of_ne_nil (segments_ne_nil d)
  simp [segments, h]

theorem segments_cons_of_ne_zero {b : Byte} {d x : Bytes} {ss : List Bytes} (hb : b ≠ 0)
    (h : segments d = x :: ss) : segments (b :: d) = (b :: x) :: ss := by
  rw [segments, h]
  exact if_neg hb

theorem segments_of_zeroFree {x : Bytes} (hx : (0 : Byte) ∉ x) : segments x = [x] := by
  induction x with
  | nil => rfl
  | cons b x ih =>
    exact segments_cons_of_ne_zero (List.ne_of_not_mem_cons hx).symm
      (ih (List.not_mem_of_not_mem_cons hx))

theorem segments_append_zero {x : Bytes} (hx : (0 : Byte) ∉ x) (d : Bytes) :
    segments (x ++ 0 :: d) = x :: segments d := by
  induction x with
  | nil => exact segments_zero_cons d
  | cons b x ih =>
    exact segments_cons_of_ne_zero (List.ne_of_not_mem_cons hx).symm
      (ih (List.not_mem_of_not_mem_cons hx))

theorem not_mem_of_mem_segments (d : Bytes) : ∀ x ∈ segments d, (0 : Byte) ∉ x := by
  induction d with
  | nil => simp [segments]
  | cons b d ih =>
    by_cases hb : b = 0
    · subst hb
      rw [segments_zero_cons]
      exact List.forall_mem_cons.mpr ⟨List.not_mem_nil, ih⟩
    · obtain ⟨x, ss, h⟩ := List.exists_cons_of_ne_nil (segments_ne_nil d)
      rw [h] at ih
      obtain ⟨hx, hss⟩ := List.forall_mem_cons.mp ih
      rw [segments_cons_of_ne_zero hb h]
      exact List.forall_mem_cons.mpr ⟨List.not_mem_cons_of_ne_of_not_mem (Ne.symm hb) hx, hss⟩

theorem zeroFree_segments (d : Bytes) : ZeroFree (segments d) :=
  ⟨segments_ne_nil d, not_mem_of_mem_segments d⟩

/-! ### Joining segments with zero bytes -/

theorem joinZeros_singleton (x : Bytes) : joinZeros [x] = x := by
  simp [joinZeros]

theorem joinZeros_cons {ss : List Bytes} (x : Bytes) (hss : ss ≠ []) :
    joinZeros (x :: ss) = x ++ 0 :: joinZeros ss := by
  obtain ⟨y, ss, rfl⟩ := List.exists_cons_of_ne_nil hss
  simp [joinZeros, List.intercalate]

theorem joinZeros_cons_cons (b : Byte) (x : Bytes) (ss : List Bytes) :
    joinZeros ((b :: x) :: ss) = b :: joinZeros (x :: ss) := by
  cases ss with
  | nil => simp only [joinZeros_singleton]
  | cons y ss => simp [joinZeros_cons]

theorem joinZeros_segments (d : Bytes) : joinZeros (segments d) = d := by
  induction d with
  | nil => rfl
  | cons b d ih =>
    by_cases hb : b = 0
    · subst hb
      rw [segments_zero_cons, joinZeros_cons _ (segments_ne_nil d), ih, List.nil_append]
    · obtain ⟨x, ss, h⟩ := List.exists_cons_of_ne_nil (segments_ne_nil d)
      rw [segments_cons_of_ne_zero hb h, joinZeros_cons_cons, ← h, ih]

/-- A string is cut in one way only: zero-free segments are the ones `segments` finds in the joined string. -/
theorem segments_joinZeros {ss : List Bytes} (h : ZeroFree ss) : segments (joinZeros ss) = ss := by
  obtain ⟨hne, hfree⟩ := h
  induction ss with
  | nil => exact absurd rfl hne
  | cons x ss ih =>
    obtain ⟨hx, hss⟩ := List.forall_mem_cons.mp hfree
    cases ss with
    | nil => rw [joinZeros_singleton, segments_of_zeroFree hx]
    | cons y ss =>
      have hne : y :: ss ≠ [] := List.cons_ne_nil y ss
      rw [joinZeros_cons x hne, segments_append_zero hx, ih hne hss]

/-! ### The groups of one segment -/

/-- The 0xFF blocks of a segment, as `specSeg` lists them (R90). -/
def fullBlocks (x : Bytes) : Bytes :=
  (List.range (x.length / 254)).flatMap (fun i => 0xFF :: (x.drop (254 * i)).take 254)

/-- The group that follows the full blocks of a segment, as `specSeg` writes it (R90). -/
def finalGroup (x : Bytes) : Bytes :=
  BitVec.ofNat 8 (x.length % 254 + 1) :: x.drop (254 * (x.length / 254))

theorem specSeg_eq (x : Bytes) (last : Bool) :
    specSeg x last = fullBlocks x ++
      (if last = true ∧ x ≠ [] ∧ x.length % 254 = 0 then [] else finalGroup x) := rfl

theorem fullBlocks_of_length_lt {x : Bytes} (h : x.length < 254) : fullBlocks x = [] := by
  simp [fullBlocks, Nat.div_eq_of_lt h]

theorem finalGroup_of_length_lt {x : Bytes} (h : x.length < 254) : finalGroup x = group x := by
  simp [finalGroup, group, Nat.div_eq_of_lt h, Nat.mod_eq_of_lt h]

theorem fullBlocks_of_le_length {x : Bytes} (h : 254 ≤ x.length) :
    fullBlocks x = 0xFF :: (x.take 254 ++ fullBlocks (x.drop 254)) := by
  have hdiv : x.length / 254 = (x.length - 254) / 254 + 1 := by omega
  have hdrop (i : Nat) : x.drop (254 * (i + 1)) = (x.drop 254).drop (254 * i) := by
    rw [List.drop_drop, Nat.mul_succ, Nat.add_comm]
  simp [fullBlocks, hdiv, List.range_succ_eq_map, List.flatMap_map, hdrop]

theorem finalGroup_of_le_length {x : Bytes} (h : 254 ≤ x.length) :
    finalGroup x = finalGroup (x.drop 254) := by
  have hmod : x.length % 254 = (x.length - 254) % 254 := by omega
  have hdiv : 254 * (x.length / 254) = 254 + 254 * ((x.length - 254) / 254) := by omega
  simp [finalGroup, hmod, hdiv]

/-- With less than a block left the loop only decides on the final group: something is left exactly when the
length is no multiple of 254. -/
theorem segGo_of_length_lt (fuel : Nat) {x : Bytes} (emit : Bool) (h : x.length < 254) :
    segGo fuel x emit =
      fullBlocks x ++ (if emit = true ∨ x.length % 254 ≠ 0 then finalGroup x else []) := by
  have hrest : x.length % 254 ≠ 0 ↔ x ≠ [] := by
    rw [Nat.mod_eq_of_lt h, ne_eq, List.length_eq_zero_iff]
  simp only [hrest, fullBlocks_of_length_lt h, finalGroup_of_length_lt h]
  cases fuel with
  | zero => simp [segGo]
  | succ fuel => simp [segGo, Nat.not_le.mpr h]

/-- The loop of R90 in closed form. -/
theorem segGo_eq {fuel : Nat} {x : Bytes} (emit : Bool) (hfuel : x.length ≤ fuel) :
    segGo fuel x emit =
      fullBlocks x ++ (if emit = true ∨ x.length % 254 ≠ 0 then finalGroup x else []) := by
  induction fuel generalizing x with
  | zero => exact segGo_of_length_lt 0 emit (by omega)
  | succ fuel ih =>
    rcases Nat.lt_or_ge x.length 254 with hshort | hlong
    · exact segGo_of_length_lt _ emit hshort
    · have hmod : (x.drop 254).length % 254 = x.length % 254 := by
        rw [List.length_drop]; omega
      rw [segGo, if_pos hlong, ih (by rw [List.length_drop]; omega), hmod,
        fullBlocks_of_le_length hlong, finalGroup_of_le_length hlong, List.cons_append,
        List.append_assoc]

theorem seg_eq_specSeg (x : Bytes) (last : Bool) : seg x last = specSeg x last := by
  have hfinal : ((!last || x.isEmpty) = true ∨ x.length % 254 ≠ 0) ↔
      ¬ (last = true ∧ x ≠ [] ∧ x.length % 254 = 0) := by
    simp [or_iff_not_imp_left]
  rw [seg, segGo_eq _ le_rfl, specSeg_eq]
  simp only [hfinal, ite_not]

theorem encSegments_eq_specSegs (ss : List Bytes) : encSegments ss = specSegs ss := by
  induction ss using specSegs.induct with
  | case1 => rfl
  | case2 x => exact seg_eq_specSeg x true
  | case3 x y ss ih => rw [encSegments, specSegs, seg_eq_specSeg, ih]

theorem cobsEnc_joinZeros {ss : List Bytes} (h : ZeroFree ss) :
    cobsEnc (joinZeros ss) = specSegs ss := by
  rw [cobsEnc, segments_joinZeros h, encSegments_eq_specSegs]

theorem exec_cobsEnc (d : Bytes) (s : State) :
    exec (.cobsEnc d) s = .next (replied (.bytes (cobsEnc d)) s) := rfl

/-- Settles O15 (R90): `segments` undoes `joinZeros` on zero-free segments, and `seg` is its closed form. -/
theorem cobsEncAnswersTheGroups : Obligations.CobsEncAnswersTheGroups :=
  ⟨fun d => ⟨segments d, zeroFree_segments d, (joinZeros_segments d).symm⟩,
    fun ss s h => by rw [exec_cobsEnc, cobsEnc_joinZeros h]⟩

/-! ### The loop of the decoder -/

/-- One turn of the decoder at a group whose code byte is `code`, in the order of the tests of R92. -/
theorem cobsDecGo_cons (fuel : Nat) (code : Byte) (rest : Bytes) :
    cobsDecGo (fuel + 1) (code :: rest) =
      if code = 0 then none
      else if rest.length < code.toNat - 1 then none
      else if (0 : Byte) ∈ rest.take (code.toNat - 1) then none
      else if rest.length = code.toNat - 1 then some (rest.take (code.toNat - 1))
      else (cobsDecGo fuel (rest.drop (code.toNat - 1))).map
        (rest.take (code.toNat - 1) ++ (if code ≠ 0xFF then [0] else []) ++ ·) := by
  have hzero : (rest.take (code.toNat - 1)).any (· == 0) = true ↔
      (0 : Byte) ∈ rest.take (code.toNat - 1) := by simp
  rw [cobsDecGo]
  refine if_congr Iff.rfl rfl (if_ctx_congr Iff.rfl (fun _ => rfl) fun hfits => ?_)
  have hlast : (rest.drop (code.toNat - 1)).isEmpty = true ↔ rest.length = code.toNat - 1 := by
    rw [List.isEmpty_iff, List.drop_eq_nil_iff]; omega
  refine if_congr hzero rfl (if_congr hlast rfl ?_)
  cases cobsDecGo fuel (rest.drop (code.toNat - 1)) <;> simp

theorem drop_eq_getD_cons {c : Bytes} {i : Nat} (hi : i < c.length) :
    c.drop i = c.getD i 0 :: c.drop (i + 1) := by
  rw [List.drop_eq_getElem_cons hi, List.getD_eq_getElem c 0 hi]

/-- The indexed loop at `i` answers what the decoder finds in the string from `i` on, after what is already
out: both take one group a turn, so they agree for every number of turns. -/
theorem cobsLoop_eq (c : Bytes) (fuel : Nat) {i : Nat} (out : Bytes) (hi : i < c.length) :
    cobsLoop c fuel i out = cobsResult ((cobsDecGo fuel (c.drop i)).map (out ++ ·)) := by
  induction fuel generalizing i out with
  | zero => rfl
  | succ fuel ih =>
    rw [cobsLoop, drop_eq_getD_cons hi, cobsDecGo_cons]
    generalize c.getD i 0 = code
    have hrest : (c.drop (i + 1)).length = c.length - (i + 1) := List.length_drop
    have hlong : i + 1 + (code.toNat - 1) > c.length ↔
        (c.drop (i + 1)).length < code.toNat - 1 := by omega
    have hlast : i + 1 + (code.toNat - 1) = c.length ↔
        (c.drop (i + 1)).length = code.toNat - 1 := by omega
    simp only [hlong, hlast]
    generalize (if code ≠ 0xFF then [0] else [] : Bytes) = separator
    split_ifs with hcode hfits hzero hend
    · rfl
    · rfl
    · rfl
    · rfl
    · rw [ih _ (by omega), List.drop_drop, Option.map_map]
      simp only [Function.comp_def, List.append_assoc]

theorem exec_cobsDec (c : Bytes) (s : State) :
    exec (.cobsDec c) s = .next (replied (cobsResult (cobsDec c)) s) := rfl

/-- Settles O17 (R92): the indexed loop from index 0 with nothing out yet is the decoder's loop. -/
theorem cobsDecAnswersTheLoop : Obligations.CobsDecAnswersTheLoop := fun c s => by
  rw [exec_cobsDec]
  split
  next hc => rw [hc]; rfl
  next hc => rw [cobsLoop_eq c _ [] (List.length_pos_iff.mpr hc)]; simp [cobsDec]

end Sys2Proof.Machine
end

section
/-! The Frame Codec's decoder: its tests in the order of R102, each stated on the string it looks at. -/

namespace Sys2Proof.Machine

theorem crc32_eq_crcResidue_iff (d : Bytes) : crc32 d = crcResidue ↔ crcNat d = 0x2144DF1C := by
  rw [← toNat_crc32, ← BitVec.toNat_inj]; rfl

theorem slice_zero (u : Bytes) (n : Nat) : slice u 0 n = u.take n := rfl

/-- The two tests of `FCS_CHECK` have the same answer, so they are one condition (R83). -/
theorem fcsCheck_eq (d : Bytes) :
    fcsCheck d = if d.length < 4 ∨ crcNat d ≠ 0x2144DF1C then .error .corruptFrame
      else .ok (d.take (d.length - 4)) := by
  rw [fcsCheck, ite_or, slice_zero]
  simp only [ne_eq, crc32_eq_crcResidue_iff]

theorem any_beq_flag_iff (f : Bytes) : f.any (· == flag) = true ↔ (0x55 : Byte) ∈ f := by
  simp [flag]

theorem decodeFrame_of_flag_mem {f : Bytes} (hf : (0x55 : Byte) ∈ f) :
    decodeFrame f = .error .decodeErrorFlagInFrame :=
  if_pos ((any_beq_flag_iff f).mpr hf)

theorem decodeFrame_of_malformed {f : Bytes} (hf : (0x55 : Byte) ∉ f)
    (hc : cobsDec (swapIn f) = none) : decodeFrame f = .error .decodeErrorMalformed := by
  rw [decodeFrame, if_neg (mt (any_beq_flag_iff f).mp hf), hc]

theorem decodeFrame_of_unstuffed {f d : Bytes} (hf : (0x55 : Byte) ∉ f)
    (hc : cobsDec (swapIn f) = some d) : decodeFrame f = fcsCheck d := by
  rw [decodeFrame, if_neg (mt (any_beq_flag_iff f).mp hf), hc]

theorem exec_decodeFrame (f : Bytes) (s : State) :
    exec (.decodeFrame f) s = .next (replied (bytesResult (decodeFrame f)) s) := rfl

/-- Settles O22 (R102): one lemma for each test, and the answer is that of the first that fails. -/
theorem decodeFrameReportsTheFirstFailure : Obligations.DecodeFrameReportsTheFirstFailure := by
  refine ⟨fun f s hf => ?_, fun f s hf hc => ?_, fun f d s hf hc => ?_⟩
  · rw [exec_decodeFrame, decodeFrame_of_flag_mem hf, bytesResult]
  · rw [exec_decodeFrame, decodeFrame_of_malformed hf hc, bytesResult]
  · rw [exec_decodeFrame, decodeFrame_of_unstuffed hf hc, fcsCheck_eq, apply_ite bytesResult]
    rfl

end Sys2Proof.Machine
end

section
/-! The receive chain behind a completed frame: the model's shared operations and the terms of the claims are
the same updates, and `RX_FRAME` has one equation for each way it can go (R111). -/

namespace Sys2Proof.Machine

theorem raise_eq_reported (c : Cause) (info : Option Nat) (s : State) :
    raise c info s = reported (causeCode c) info s := rfl

theorem capture_eq_captured (dir : Byte) (dg : Bytes) (s : State) :
    capture dir dg s = captured dir dg s := capture_eq s dir dg

/-! ### The datagram header in arithmetic (R9, R116) -/

/-- The high byte is shifted clear of the low one, so joining the bits adds the numbers. -/
theorem fromBe16_eq_ofNat_num16 (hi lo : Byte) : fromBe16 hi lo = BitVec.ofNat 16 (num16 hi lo) := by
  have htoNat : (fromBe16 hi lo).toNat = num16 hi lo := by
    rw [fromBe16, BitVec.toNat_append, ← Nat.shiftLeft_add_eq_or_of_lt lo.isLt, Nat.shiftLeft_eq]; rfl
  rw [← htoNat, BitVec.ofNat_toNat, BitVec.setWidth_eq]

theorem unencap_of_length_lt {dg : Bytes} (h : dg.length < 2) :
    unencap dg = .error .datagramTooShort := if_pos h

theorem unencap_cons_cons (hi lo : Byte) (payload : Bytes) :
    unencap (hi :: lo :: payload) = .ok (BitVec.ofNat 16 (num16 hi lo), payload) := by
  have header : be16At (hi :: lo :: payload) 0 = fromBe16 hi lo := rfl
  have rest : slice (hi :: lo :: payload) 2 (hi :: lo :: payload).length = payload := by simp [slice]
  rw [unencap, if_neg (by simp), header, rest, fromBe16_eq_ofNat_num16]

/-! ### The frame -/

theorem rxFrameOp_of_undecoded (P : Params) {f : Bytes} {e : Cause} (s : State)
    (h : decodeFrame f = .error e) : rxFrameOp P f s = reported (causeCode e) none s := by
  rw [rxFrameOp, h]; rfl

theorem rxFrameOp_of_short (P : Params) {f dg : Bytes} (s : State) (h : decodeFrame f = .ok dg)
    (hlen : dg.length < 2) :
    rxFrameOp P f s = reported 0x05 (some dg.length) (captured 0x00 dg s) := by
  simp only [rxFrameOp, h, unencap_of_length_lt hlen, raise_eq_reported, capture_eq_captured]
  rfl

theorem rxFrameOp_of_datagram (P : Params) {f payload : Bytes} {hi lo : Byte} (s : State)
    (h : decodeFrame f = .ok (hi :: lo :: payload)) :
    rxFrameOp P f s = dispatchOp P (BitVec.ofNat 16 (num16 hi lo)) payload
      (captured 0x00 (hi :: lo :: payload) s) := by
  simp only [rxFrameOp, h, unencap_cons_cons, capture_eq_captured]
  rfl

@[simp] theorem rxFrameOp_mode (P : Params) (f : Bytes) (s : State) :
    (rxFrameOp P f s).mode = s.mode := by
  obtain ⟨d, k, c, h⟩ := rxFrameOp_frame s P f
  rw [h]

@[simp] theorem rxFrameOp_buf (P : Params) (f : Bytes) (s : State) :
    (rxFrameOp P f s).buf = s.buf := by
  obtain ⟨d, k, c, h⟩ := rxFrameOp_frame s P f
  rw [h]

theorem exec_rxFrame (f : Bytes) (s : State) :
    exec (.rxFrame f) s = .next (rxFrameOp params f s) := rfl

theorem exec_dispatch (n : U16) (payload : Bytes) (s : State) :
    exec (.dispatch n payload) s = .next (dispatchOp params n payload s) := rfl

/-- Settles O35 (R111, R154): one equation of `RX_FRAME` for each clause; the first two are the two errors of
`DECODE_FRAME` that contents without a `FLAG` can meet. -/
theorem rxFrameDecodesCapturesDispatches : Obligations.RxFrameDecodesCapturesDispatches := by
  refine ⟨fun f s hf hc => ?_, fun f d s hf hc hbad => ?_, fun f dg s h hlen => ?_,
    fun f payload hi lo s h => ⟨_, ?_, exec_dispatch _ _ _⟩⟩
  · rw [exec_rxFrame, rxFrameOp_of_undecoded params s (decodeFrame_of_malformed hf hc), causeCode]
  · have hcorrupt : decodeFrame f = .error .corruptFrame := by
      rw [decodeFrame_of_unstuffed hf hc, fcsCheck_eq, if_pos hbad]
    rw [exec_rxFrame, rxFrameOp_of_undecoded params s hcorrupt, causeCode]
  · rw [exec_rxFrame, rxFrameOp_of_short params s h hlen]
  · rw [exec_rxFrame, rxFrameOp_of_datagram params s h]

end Sys2Proof.Machine
end

section
/-! The FrameSplitter: which case a byte selects, what each case does, and that the row of a case always
answers what `RX_BYTE` answers (R104 to R110, R113). -/

namespace Sys2Proof.Machine

/-! ### The case a byte selects (R71) -/

theorem rxCase_eq_ignored (P : Params) (b : Byte) {s : State} (ho : s.ifOpen = false) :
    rxCase P b s = .ignored := by
  simp [rxCase, ho]

theorem rxCase_eq_syncSkip (P : Params) {b : Byte} {s : State} (ho : s.ifOpen = true)
    (hm : s.mode = .waitSync) (hb : b ≠ 0x55) : rxCase P b s = .syncSkip := by
  have hb : b ≠ flag := hb
  simp [rxCase, ho, hm, hb]

theorem rxCase_eq_syncFlag (P : Params) {s : State} (ho : s.ifOpen = true)
    (hm : s.mode = .waitSync) : rxCase P 0x55 s = .syncFlag := by
  simp [rxCase, ho, hm, flag]

theorem rxCase_eq_collectData (P : Params) {b : Byte} {s : State} (ho : s.ifOpen = true)
    (hm : s.mode = .collect) (hb : b ≠ 0x55) (hroom : s.buf.length < P.maxFrameLen) :
    rxCase P b s = .collectData := by
  have hb : b ≠ flag := hb
  simp [rxCase, ho, hm, hb, hroom]

theorem rxCase_eq_collectOverflow (P : Params) {b : Byte} {s : State} (ho : s.ifOpen = true)
    (hm : s.mode = .collect) (hb : b ≠ 0x55) (hfull : s.buf.length = P.maxFrameLen) :
    rxCase P b s = .collectOverflow := by
  have hb : b ≠ flag := hb
  simp [rxCase, ho, hm, hb, hfull]

theorem rxCase_eq_flagEmpty (P : Params) {s : State} (ho : s.ifOpen = true) (hm : s.mode = .collect)
    (hbuf : s.buf = []) : rxCase P 0x55 s = .flagEmpty := by
  simp [rxCase, ho, hm, flag, hbuf]

theorem rxCase_eq_flagFrame (P : Params) {s : State} (ho : s.ifOpen = true) (hm : s.mode = .collect)
    (hbuf : s.buf ≠ []) : rxCase P 0x55 s = .flagFrame := by
  simp [rxCase, ho, hm, flag, hbuf]

/-! ### What a case does -/

/-- The effect of case `c` on byte `b`; `rxByteOp_eq_caseEffect` ties it to `RX_BYTE`. -/
def caseEffect (P : Params) (c : RxCase) (b : Byte) (s : State) : State :=
  match c with
  | .ignored => rxIgnoredCase s
  | .syncSkip => syncSkipCase s
  | .syncFlag => syncFlagCase s
  | .collectData => collectDataCase b s
  | .collectOverflow => collectOverflowCase s
  | .flagEmpty => flagEmptyCase s
  | .flagFrame => flagFrameCase P s

theorem rxByteOp_eq_caseEffect (P : Params) (b : Byte) (s : State) :
    rxByteOp P b s = caseEffect P (rxCase P b s) b s := by
  unfold rxByteOp caseEffect
  cases rxCase P b s <;> rfl

theorem exec_rxByte (b : Byte) (s : State) : exec (.rxByte b) s = .next (rxByteOp params b s) := rfl

theorem exec_rxByte_of_case {b : Byte} {s : State} {c : RxCase} (h : rxCase params b s = c) :
    exec (.rxByte b) s = .next (caseEffect params c b s) := by
  rw [exec_rxByte, rxByteOp_eq_caseEffect, h]

/-- Where the state selects the row's case, `RX_BYTE` has the effect of that case; where it selects another,
the row is `RX_BYTE` by definition (log entry 8). -/
theorem rxRow_eq_exec_rxByte (c : RxCase) (b : Byte) (s : State) :
    rxRow c b (caseEffect params c b s) s = exec (.rxByte b) s := by
  rcases rxRow_cases s c b (caseEffect params c b s) with ⟨hcase, hrow⟩ | ⟨-, hrow⟩
  · rw [hrow, exec_rxByte_of_case hcase]
  · rw [hrow, exec_rxByte]

theorem exec_rxIgnored (b : Byte) (s : State) : exec (.rxIgnored b) s = exec (.rxByte b) s :=
  rxRow_eq_exec_rxByte .ignored b s

theorem exec_syncSkip (b : Byte) (s : State) : exec (.syncSkip b) s = exec (.rxByte b) s :=
  rxRow_eq_exec_rxByte .syncSkip b s

theorem exec_syncFlag (s : State) : exec .syncFlag s = exec (.rxByte 0x55) s :=
  rxRow_eq_exec_rxByte .syncFlag flag s

theorem exec_collectData (b : Byte) (s : State) : exec (.collectData b) s = exec (.rxByte b) s :=
  rxRow_eq_exec_rxByte .collectData b s

theorem exec_collectOverflow (b : Byte) (s : State) :
    exec (.collectOverflow b) s = exec (.rxByte b) s :=
  rxRow_eq_exec_rxByte .collectOverflow b s

theorem exec_flagEmpty (s : State) : exec .flagEmpty s = exec (.rxByte 0x55) s :=
  rxRow_eq_exec_rxByte .flagEmpty flag s

theorem exec_flagFrame (s : State) : exec .flagFrame s = exec (.rxByte 0x55) s :=
  rxRow_eq_exec_rxByte .flagFrame flag s

/-- A byte and a row that stands for it have the effect of the case the state selects. -/
theorem exec_rxByte_and_row_of_case {i : Instr} {b : Byte} {s : State} {c : RxCase}
    (hrow : exec i s = exec (.rxByte b) s) (hcase : rxCase params b s = c) :
    exec (.rxByte b) s = .next (caseEffect params c b s) ∧
      exec i s = .next (caseEffect params c b s) :=
  ⟨exec_rxByte_of_case hcase, hrow.trans (exec_rxByte_of_case hcase)⟩

/-- Settles O33 (R105 to R108, R113): the hypotheses of each clause select its case, whose row answers what
`RX_BYTE` answers. -/
theorem bytesSyncAreStoredOrOverflow : Obligations.BytesSyncAreStoredOrOverflow := by
  refine ⟨fun b s ho => ?ignored, fun b s ho hm hb => ?syncSkip, fun s ho hm => ?syncFlag,
    fun b s ho hm hb hroom => ?collectData, fun b s ho hm hb hfull => ?collectOverflow⟩
  case ignored =>
    exact exec_rxByte_and_row_of_case (exec_rxIgnored b s) (rxCase_eq_ignored params b ho)
  case syncSkip =>
    exact exec_rxByte_and_row_of_case (exec_syncSkip b s) (rxCase_eq_syncSkip params ho hm hb)
  case syncFlag =>
    exact exec_rxByte_and_row_of_case (exec_syncFlag s) (rxCase_eq_syncFlag params ho hm)
  case collectData =>
    exact exec_rxByte_and_row_of_case (exec_collectData b s)
      (rxCase_eq_collectData params ho hm hb hroom)
  case collectOverflow =>
    exact exec_rxByte_and_row_of_case (exec_collectOverflow b s)
      (rxCase_eq_collectOverflow params ho hm hb hfull)

/-- Settles O34 (R109, R110): a `FLAG` in `COLLECT` selects `FLAG_EMPTY` or `FLAG_FRAME` by the buffer, and
`RX_FRAME` keeps the mode and the emptied buffer. -/
theorem flagEndsAFrame : Obligations.FlagEndsAFrame := by
  refine ⟨fun s ho hm hbuf => ?flagEmpty, fun s ho hm hbuf => ?flagFrame⟩
  case flagEmpty =>
    exact exec_rxByte_and_row_of_case (exec_flagEmpty s) (rxCase_eq_flagEmpty params ho hm hbuf)
  case flagFrame =>
    obtain ⟨hbyte, hrow⟩ := exec_rxByte_and_row_of_case (exec_flagFrame s)
      (rxCase_eq_flagFrame params ho hm hbuf)
    have hmode : (rxFrameOp params s.buf { s with buf := [] }).mode = .collect := by
      rw [rxFrameOp_mode, hm]
    exact ⟨_, hbyte, hrow, exec_rxFrame _ _, hmode, rxFrameOp_buf _ _ _⟩

end Sys2Proof.Machine
end

section
/-! `BIND` and `CLOSE` (R120, R121): what is read in a registry after an entry is made or deleted, and one
equation of the two commands for each way they can go. -/

namespace Sys2Proof.Machine

/-- A command answers on `CMD`, as the claims write it. -/
theorem reply_eq_replied (p : State × Result) : reply p = .next (replied p.2 p.1) := rfl

theorem attached_iff (s : State) :
    attached s = true ↔ Store.find 0x3A29 s.proto = some .beSwitch := beq_iff_eq

theorem attached_eq_false_iff (s : State) :
    attached s = false ↔ Store.find 0x3A29 s.proto ≠ some .beSwitch := by
  rw [← Bool.not_eq_true, attached_iff]

/-! ### The registries after `register` and `deleteEntry` -/

theorem Store.find_ite_set {α : Type} (c : Prop) [Decidable c] (a k : Nat) (v : α) (t : Store α) :
    Store.find a (if c then Store.set k v t else t) = if c ∧ a = k then some v else Store.find a t := by
  by_cases hc : c
  · simp only [hc, if_true, true_and, Store.find_set]
  · simp only [hc, if_false, false_and]

theorem Store.find_ite_del {α : Type} (c : Prop) [Decidable c] (a k : Nat) (t : Store α) :
    Store.find a (if c then Store.del k t else t) = if c ∧ a = k then none else Store.find a t := by
  by_cases hc : c
  · simp only [hc, if_true, true_and, Store.find_del]
  · simp only [hc, if_false, false_and]

theorem Store.find_upd_of_find {α : Type} {k : Nat} {v : α} {t : Store α} (h : Store.find k t = some v)
    (f : α → α) (a : Nat) :
    Store.find a (Store.upd k f t) = if a = k then some (f v) else Store.find a t := by
  rw [Store.find_upd]
  split
  · next ha => rw [ha, h]; rfl
  · rfl

theorem find_register_proto (sp : Space) (key : U16) (sid : SockId) (s : State) (n : Nat) :
    Store.find n (register sp key sid s).proto =
      if sp = .proto ∧ n = key.toNat then some (.raw sid) else Store.find n s.proto := by
  rw [register_proto, Store.find_ite_set]

theorem find_register_beport (sp : Space) (key : U16) (sid : SockId) (s : State) (n : Nat) :
    Store.find n (register sp key sid s).beport =
      if sp = .beport ∧ n = key.toNat then some sid else Store.find n s.beport := by
  rw [register_beport, Store.find_ite_set]

theorem find_register_relport (sp : Space) (key : U16) (sid : SockId) (s : State) (n : Nat) :
    Store.find n (register sp key sid s).relport =
      if sp = .relport ∧ n = key.toNat then some sid else Store.find n s.relport := by
  rw [register_relport, Store.find_ite_set]

theorem find_deleteEntry_proto (sp : Space) (key : U16) (s : State) (n : Nat) :
    Store.find n (deleteEntry sp key s).proto =
      if sp = .proto ∧ n = key.toNat then none else Store.find n s.proto := by
  rw [deleteEntry_proto, Store.find_ite_del]

theorem find_deleteEntry_beport (sp : Space) (key : U16) (s : State) (n : Nat) :
    Store.find n (deleteEntry sp key s).beport =
      if sp = .beport ∧ n = key.toNat then none else Store.find n s.beport := by
  rw [deleteEntry_beport, Store.find_ite_del]

theorem find_deleteEntry_relport (sp : Space) (key : U16) (s : State) (n : Nat) :
    Store.find n (deleteEntry sp key s).relport =
      if sp = .relport ∧ n = key.toNat then none else Store.find n s.relport := by
  rw [deleteEntry_relport, Store.find_ite_del]

/-! ### `BIND` (R120) -/

theorem exec_bind (sp : Space) (key : U16) (s : State) :
    exec (.bind sp key) s = .next (replied (bindOp sp key s).2 (bindOp sp key s).1) := rfl

theorem bindOp_of_closed (sp : Space) (key : U16) {s : State} (ho : s.ifOpen = false) :
    bindOp sp key s = (s, .err .interfaceClosed) := by
  simp [bindOp, ho]

theorem bindOp_of_detached (key : U16) {s : State} (ho : s.ifOpen = true) (ha : attached s = false) :
    bindOp .beport key s = (s, .err .notAttached) := by
  simp [bindOp, ho, ha]

theorem bindOp_of_bound {sp : Space} {key : U16} {s : State} (ho : s.ifOpen = true)
    (ha : sp = .beport → attached s = true) (hb : bound sp key s = true) :
    bindOp sp key s = (s, .err .alreadyBound) := by
  simpa [bindOp, ho, hb] using ha

theorem bindOp_of_free {sp : Space} {key : U16} {s : State} (ho : s.ifOpen = true)
    (ha : sp = .beport → attached s = true) (hb : bound sp key s = false) :
    bindOp sp key s = (bindNew sp key s, .okSid s.nextSid) := by
  simpa [bindOp, ho, hb] using ha

/-- Settles O41 (R120): one equation of `BIND` for each clause; the new state's stores are read through
`register`. -/
theorem bindRegistersOneNewSocket : Obligations.BindRegistersOneNewSocket := by
  refine ⟨fun sp key s ho => ?closed, fun key s ho ha => ?detached, fun sp key s ho ha hb => ?bound,
    fun sp key s ho ha hb => ?free⟩
  case closed => rw [exec_bind, bindOp_of_closed sp key ho]
  case detached => rw [exec_bind, bindOp_of_detached key ho ((attached_eq_false_iff s).2 ha)]
  case bound => rw [exec_bind, bindOp_of_bound ho (fun h => (attached_iff s).2 (ha h)) hb]
  case free =>
    refine ⟨_, _, _, _, ?_, fun a => Store.find_set a s.nextSid _ s.sock,
      find_register_proto sp key s.nextSid s, find_register_beport sp key s.nextSid s,
      find_register_relport sp key s.nextSid s⟩
    rw [exec_bind, bindOp_of_free ho (fun h => (attached_iff s).2 (ha h)) hb, bindNew]
    cases sp <;> rfl

/-! ### `CLOSE` (R121) -/

theorem exec_close (sid : SockId) (s : State) :
    exec (.close sid) s = .next (replied (closeOp sid s).2 (closeOp sid s).1) := rfl

theorem closeOp_of_unknown {sid : SockId} {s : State} (h : Store.find sid s.sock = none) :
    closeOp sid s = (s, .err .noSuchSocket) := by
  simp [closeOp, Store.has, h]

theorem closeOp_of_known {sid : SockId} {k : Socket} {s : State} (h : Store.find sid s.sock = some k) :
    closeOp sid s = (closeSock sid s, .ok) := by
  simp [closeOp, Store.has, h]

theorem closeSock_of_closed {sid : SockId} {k : Socket} {s : State}
    (h : Store.find sid s.sock = some k) (hc : k.closed = true) : closeSock sid s = s := by
  simp [closeSock, h, hc]

theorem closeSock_of_open {sid : SockId} {k : Socket} {s : State}
    (h : Store.find sid s.sock = some k) (hc : k.closed = false) :
    closeSock sid s =
      deleteEntry k.space k.key { s with sock := Store.upd sid Socket.shut s.sock } := by
  simp [closeSock, h, hc]

/-- Settles O42 (R121): `CLOSE_SOCK` of an open socket shuts its record and deletes the entry it names. -/
theorem closeUnregistersTheSocket : Obligations.CloseUnregistersTheSocket := by
  refine ⟨fun sid s h => ?unknown, fun sid k s h hc => ?closed, fun sid k s h hc => ?opened⟩
  case unknown => rw [exec_close, closeOp_of_unknown h]
  case closed => rw [exec_close, closeOp_of_known h, closeSock_of_closed h hc]
  case opened =>
    refine ⟨_, _, _, _, ?_, Store.find_upd_of_find h Socket.shut,
      find_deleteEntry_proto k.space k.key s, find_deleteEntry_beport k.space k.key s,
      find_deleteEntry_relport k.space k.key s⟩
    rw [exec_close, closeOp_of_known h, closeSock_of_open h hc]
    cases k.space <;> rfl

end Sys2Proof.Machine
end

section
/-! Routing, transmission, reception and configuration (R122, R124, R127, R129, R130): one equation of each
command for each way it can go. -/

namespace Sys2Proof.Machine

/-! ### `DISPATCH` (R122, R131) -/

theorem dispatchOp_of_unbound (P : Params) {n : U16} (payload : Bytes) {s : State}
    (h : Store.find n.toNat s.proto = none) :
    dispatchOp P n payload s = reported 0x06 (some n.toNat) s := by
  rw [dispatchOp, h]; rfl

theorem dispatchOp_of_raw (P : Params) {n : U16} (payload : Bytes) {sid : SockId} {s : State}
    (h : Store.find n.toNat s.proto = some (.raw sid)) :
    dispatchOp P n payload s = enqueueOp P sid payload s := by
  rw [dispatchOp, h]

theorem dispatchOp_of_switch (P : Params) {n : U16} (payload : Bytes) {s : State}
    (h : Store.find n.toNat s.proto = some .beSwitch) :
    dispatchOp P n payload s = beDemuxOp P payload s := by
  rw [dispatchOp, h]

theorem pushQueue_eq_delivered (sid : SockId) (payload : Bytes) (s : State) :
    pushQueue sid payload s = delivered sid payload s := rfl

theorem enqueueOp_params_eq_delivered (sid : SockId) (payload : Bytes) (s : State) :
    enqueueOp params sid payload s = delivered sid payload s := by
  rw [enqueueOp_params, pushQueue_eq_delivered]

theorem exec_beDemux (u : Bytes) (s : State) :
    exec (.beDemux u) s = .next (beDemuxOp params u s) := rfl

/-- Settles O43 (R122, R131): the registry entry of the number selects one of the three clauses. -/
theorem dispatchRoutesByTheRegistry : Obligations.DispatchRoutesByTheRegistry := by
  refine ⟨fun n payload s h => ?unbound, fun n payload sid s h => ?raw,
    fun n payload s h => ⟨_, ?switch, exec_beDemux payload s⟩⟩
  case unbound => rw [exec_dispatch, dispatchOp_of_unbound params payload h]
  case raw =>
    rw [exec_dispatch, dispatchOp_of_raw params payload h, enqueueOp_params_eq_delivered]
  case switch => rw [exec_dispatch, dispatchOp_of_switch params payload h]

/-! ### `TX_DATAGRAM` (R124, R126) -/

/-- The two bytes cut out of a 16-bit word are its quotient and its remainder by 256 (R9, R48). -/
theorem be16_eq_bytes16 (v : U16) : be16 v = bytes16 v.toNat := by
  have hi : v.extractLsb' 8 8 = BitVec.ofNat 8 (v.toNat / 256) := by
    apply BitVec.eq_of_toNat_eq
    rw [BitVec.extractLsb'_toNat, BitVec.toNat_ofNat, Nat.shiftRight_eq_div_pow]
  have lo : v.extractLsb' 0 8 = BitVec.ofNat 8 v.toNat := by
    apply BitVec.eq_of_toNat_eq
    rw [BitVec.extractLsb'_toNat, BitVec.toNat_ofNat, Nat.shiftRight_zero]
  rw [be16, bytes16, hi, lo]

theorem encap_eq_bytes16_append (n : U16) (payload : Bytes) :
    encap n payload = bytes16 n.toNat ++ payload := by
  rw [encap, be16_eq_bytes16]

theorem exec_txDatagram (n : U16) (payload : Bytes) (s : State) :
    exec (.txDatagram n payload) s = .next (txDatagramOp n payload s) := rfl

/-- Settles O46 (R124, R126): the header in arithmetic put into the one equation of `TX_DATAGRAM`. -/
theorem txDatagramEmitsOneWholeFrame : Obligations.TxDatagramEmitsOneWholeFrame := by
  intro n payload s
  rw [exec_txDatagram, txDatagramOp_eq, encap_eq_bytes16_append, dirSent]

/-! ### `RECV` (R127) -/

theorem exec_recv (sid : SockId) (s : State) :
    exec (.recv sid) s = .next (answerRcv (recvOp sid s).2 (recvOp sid s).1) := rfl

theorem recvOp_of_unknown {sid : SockId} {s : State} (h : Store.find sid s.sock = none) :
    recvOp sid s = (s, .err .noSuchSocket) := by
  rw [recvOp, h]

theorem recvOp_of_closed {sid : SockId} {k : Socket} {s : State} (h : Store.find sid s.sock = some k)
    (hc : k.closed = true) : recvOp sid s = (s, .err .socketClosed) := by
  simp [recvOp, h, hc]

theorem recvOp_of_empty {sid : SockId} {k : Socket} {s : State} (h : Store.find sid s.sock = some k)
    (hc : k.closed = false) (hq : k.queue = []) : recvOp sid s = (s, .err .receiveQueueEmpty) := by
  simp [recvOp, h, hc, hq]

theorem recvOp_of_waiting {sid : SockId} {k : Socket} {p : Bytes} {rest : List Bytes} {s : State}
    (h : Store.find sid s.sock = some k) (hc : k.closed = false) (hq : k.queue = p :: rest) :
    recvOp sid s = (popQueue sid rest s, .okBytes p) := by
  simp [recvOp, h, hc, hq]

/-- Settles O49 (R127): the socket's record selects one equation of `RECV` for each clause. -/
theorem recvTakesTheOldestPayload : Obligations.RecvTakesTheOldestPayload := by
  refine ⟨fun sid s h => ?unknown, fun sid k s h => ⟨fun hc => ?closed, fun hc hq => ?empty,
    fun p rest hc hq => ⟨_, ?waiting, Store.find_upd_of_find h (Socket.withQueue rest)⟩⟩⟩
  case unknown => rw [exec_recv, recvOp_of_unknown h]; rfl
  case closed => rw [exec_recv, recvOp_of_closed h hc]; rfl
  case empty => rw [exec_recv, recvOp_of_empty h hc hq]; rfl
  case waiting => rw [exec_recv, recvOp_of_waiting h hc hq]; rfl

/-! ### `SET_MTU` and `SET_CAP` (R129, R130) -/

theorem exec_setMtu (v : U16) (s : State) :
    exec (.setMtu v) s = .next (replied .ok { s with linkMtu := v }) := rfl

theorem exec_setCap (en : Bool) (s : State) :
    exec (.setCap en) s = .next (replied .ok { s with capEn := en }) := rfl

/-- Settles O53 (R129, R130): each command is one register write and the answer. -/
theorem configurationCommandsWriteOneRegister : Obligations.ConfigurationCommandsWriteOneRegister :=
  ⟨exec_setMtu, exec_setCap⟩

end Sys2Proof.Machine
end

section
/-! `IF_CLOSE` (R128): closing every socket of the store leaves no registry entry but the switch's, because
every entry names an open socket (R32 item 2) and closing a socket deletes the only entry that names it. -/

namespace Sys2Proof.Machine

/-! ### What closing deletes -/

theorem entryIs_deleteEntry (sp sp' : Space) (key key' : U16) (sid : SockId) (s : State) :
    entryIs sp key sid (deleteEntry sp' key' s) ↔ ¬(sp' = sp ∧ key = key') ∧ entryIs sp key sid s := by
  cases sp
  case proto =>
    rw [entryIs, find_deleteEntry_proto, Option.ite_none_left_eq_some, BitVec.toNat_inj, entryIs]
  case beport =>
    rw [entryIs, find_deleteEntry_beport, Option.ite_none_left_eq_some, BitVec.toNat_inj, entryIs]
  case relport =>
    rw [entryIs, find_deleteEntry_relport, Option.ite_none_left_eq_some, BitVec.toNat_inj, entryIs]

/-- An entry that closing leaves names another socket: the closed socket's entry is the one its record
names, and that is deleted. -/
theorem closeSock_keeps_entriesOpen (sid : SockId) {s : State} (h : EntriesOpen s) :
    EntriesOpen (closeSock sid s) := by
  rcases closeSock_cases s sid with ⟨e, -⟩ | ⟨k, hk, -, e⟩
  · rwa [e]
  · rw [e]
    intro sp key a hentry
    obtain ⟨hother, hbefore⟩ := (entryIs_deleteEntry _ _ _ _ _ _).1 hentry
    obtain ⟨k', hk', hsp, hkey, hopen⟩ := h sp key a hbefore
    have hne : a ≠ sid := by
      rintro rfl
      obtain rfl : k = k' := Option.some.inj (hk.symm.trans hk')
      exact hother ⟨hsp, hkey.symm⟩
    refine ⟨k', ?_, hsp, hkey, hopen⟩
    rw [deleteEntry_sock, Store.find_upd_ne hne, hk']

theorem closeSock_keeps_switchPlace (sid : SockId) {s : State} (h : SwitchPlace s) :
    SwitchPlace (closeSock sid s) := by
  rcases closeSock_cases s sid with ⟨e, -⟩ | ⟨k, -, -, e⟩
  · rwa [e]
  · rw [e]
    intro n hn
    rw [find_deleteEntry_proto, Option.ite_none_left_eq_some] at hn
    exact h n hn.2

/-- What every single closing keeps, closing a list of sockets keeps. -/
theorem closeAll_keeps {I : State → Prop} (hstep : ∀ sid s, I s → I (closeSock sid s))
    (sids : List SockId) {s : State} (h : I s) : I (closeAll sids s) := by
  induction sids generalizing s with
  | nil => exact h
  | cons sid sids ih => exact ih (hstep sid s h)

/-! ### Closing every socket of the store -/

/-- A closed socket has an empty queue already (R32 item 8), so closing all sockets shuts each record. -/
theorem find_closeAll_keys {s : State} (hempty : ClosedEmpty s) (a : SockId) :
    Store.find a (closeAll (Store.keys s.sock) s).sock = (Store.find a s.sock).map Socket.shut := by
  rw [closeAll_find]
  cases hk : Store.find a s.sock with
  | none => simp
  | some k =>
    have hmem : a ∈ Store.keys s.sock := (Store.mem_keys a s.sock).2 ((Store.has_iff a s.sock).2 ⟨k, hk⟩)
    rw [if_pos hmem, Option.map_some, Option.map_some]
    cases hc : k.closed with
    | false => rfl
    | true =>
      have hshut : k.shut = k := by
        rw [Socket.shut, ← hempty a k hk hc, ← hc]
      simp [hshut]

theorem not_entryIs_closeAll_keys {s : State} (hentries : EntriesOpen s) (hempty : ClosedEmpty s)
    (sp : Space) (key : U16) (sid : SockId) :
    ¬entryIs sp key sid (closeAll (Store.keys s.sock) s) := by
  intro hentry
  have hkept := closeAll_keeps (fun sid _ h => closeSock_keeps_entriesOpen sid h) (Store.keys s.sock)
    hentries
  obtain ⟨k, hk, -, -, hopen⟩ := hkept sp key sid hentry
  rw [find_closeAll_keys hempty] at hk
  obtain ⟨k', -, rfl⟩ := Option.map_eq_some_iff.1 hk
  cases hopen

/-! ### Empty registries -/

theorem Store.eq_nil_of_find {α : Type} {t : Store α} (h : ∀ n, Store.find n t = none) : t = [] := by
  cases t with
  | nil => rfl
  | cons p t => simpa [Store.find] using h p.1

/-- The keys of a registry are 16-bit numbers, so a registry with no entry at any 16-bit key is empty. -/
theorem Store.eq_nil_of_find_key {α : Type} {t : Store α} (ht : Store.keys16 t = true)
    (h : ∀ (key : U16) (v : α), Store.find key.toNat t ≠ some v) : t = [] := by
  refine Store.eq_nil_of_find fun n => Option.eq_none_iff_forall_ne_some.2 fun v hv => ?_
  have hn : n < 65536 := (Store.keys16_iff t).1 ht _ (Store.find_mem hv)
  exact h (BitVec.ofNat 16 n) v (by rwa [BitVec.toNat_ofNat, Nat.mod_eq_of_lt hn])

theorem beport_eq_nil {s : State} (hwf : Memory.wf s = true)
    (h : ∀ key sid, ¬entryIs .beport key sid s) : s.beport = [] := by
  obtain ⟨-, ⟨-, hkeys⟩, -, -⟩ := (Memory.wf_iff s).1 hwf
  exact Store.eq_nil_of_find_key hkeys h

theorem relport_eq_nil {s : State} (hwf : Memory.wf s = true)
    (h : ∀ key sid, ¬entryIs .relport key sid s) : s.relport = [] := by
  obtain ⟨-, -, ⟨-, hkeys⟩, -⟩ := (Memory.wf_iff s).1 hwf
  exact Store.eq_nil_of_find_key hkeys h

/-- With no socket bound, the only entry the protocol registry can hold is the switch at 0x3A29, and that is
removed. -/
theorem dropSwitch_proto_eq_nil {s : State} (hwf : Memory.wf s = true) (hplace : SwitchPlace s)
    (h : ∀ key sid, ¬entryIs .proto key sid s) : (dropSwitch s).proto = [] := by
  obtain ⟨⟨-, hkeys⟩, -⟩ := (Memory.wf_iff _).1 (dropSwitch_wf hwf)
  refine Store.eq_nil_of_find_key hkeys fun key e he => ?_
  rw [dropSwitch] at he
  split at he
  · rw [Store.find_del, Option.ite_none_left_eq_some] at he
    obtain ⟨hne, he⟩ := he
    cases e with
    | raw sid => exact h key sid he
    | beSwitch => exact hne (hplace _ he)
  · next hdetached =>
    cases e with
    | raw sid => exact h key sid he
    | beSwitch => exact hdetached (by rw [attached, ← hplace _ he, he]; rfl)

/-! ### `IF_CLOSE` -/

theorem exec_ifClose (s : State) : exec .ifClose s = .next (replied .ok (ifCloseOp s)) := rfl

theorem ifCloseOp_of_closed {s : State} (ho : s.ifOpen = false) : ifCloseOp s = s := by
  simp [ifCloseOp, ho]

theorem ifCloseOp_of_open {s : State} (ho : s.ifOpen = true) : ifCloseOp s = shutDown s := by
  simp [ifCloseOp, ho]

theorem dropSwitch_beport (s : State) : (dropSwitch s).beport = s.beport := by
  obtain ⟨p, h⟩ := dropSwitch_frame s
  rw [h]

theorem dropSwitch_relport (s : State) : (dropSwitch s).relport = s.relport := by
  obtain ⟨p, h⟩ := dropSwitch_frame s
  rw [h]

theorem dropSwitch_sock (s : State) : (dropSwitch s).sock = s.sock := by
  obtain ⟨p, h⟩ := dropSwitch_frame s
  rw [h]

/-- Closing an open interface that meets the invariants leaves all three registries empty. -/
theorem shutDown_eq {P : Params} {s : State} (hinv : Inv P s) :
    shutDown s =
      { s with
        proto := [], beport := [], relport := [], sock := (closeAll (Store.keys s.sock) s).sock
        beSimplex := false, mode := .waitSync, buf := [], ifOpen := false
        bsClosed := s.bsClosed + 1 } := by
  have hnone := not_entryIs_closeAll_keys hinv.entriesOpen hinv.closedEmpty
  have hwf := closeAll_wf (Store.keys s.sock) hinv.wf
  have hplace := closeAll_keeps (fun sid _ h => closeSock_keeps_switchPlace sid h) (Store.keys s.sock)
    hinv.switchPlace
  have hproto : (shutDown s).proto = [] := dropSwitch_proto_eq_nil hwf hplace (hnone .proto)
  have hbeport : (shutDown s).beport = [] :=
    (dropSwitch_beport _).trans (beport_eq_nil hwf (hnone .beport))
  have hrelport : (shutDown s).relport = [] :=
    (dropSwitch_relport _).trans (relport_eq_nil hwf (hnone .relport))
  have hsock : (shutDown s).sock = (closeAll (Store.keys s.sock) s).sock := dropSwitch_sock _
  obtain ⟨p, b, r, k, hframe⟩ := shutDown_frame s
  rw [hframe] at hproto hbeport hrelport hsock ⊢
  subst hproto hbeport hrelport hsock
  rfl

/-- Settles O51 (R128): on an open interface the registries empty themselves as the sockets close, and every
record that stays is shut. -/
theorem interfaceCloseCascades : Obligations.InterfaceCloseCascades := by
  refine ⟨fun s ho => ?closed, fun s hinv ho => ⟨_, ?opened, find_closeAll_keys hinv.closedEmpty⟩⟩
  case closed => rw [exec_ifClose, ifCloseOp_of_closed ho]
  case opened =>
    rw [exec_ifClose, ifCloseOp_of_open ho, shutDown_eq hinv]
    rfl

end Sys2Proof.Machine
end

section
/-! The capture tap (R126): with the tap off no operation writes `CAP`, and the tap's register and history do
not reach what a frame or a send does to the rest of the state. -/

namespace Sys2Proof.Machine

/-! ### Operations that never touch `CAP` -/

theorem dispatchOp_cap (P : Params) (n : U16) (payload : Bytes) (s : State) :
    (dispatchOp P n payload s).cap = s.cap := by
  obtain ⟨d, k, h⟩ := dispatchOp_frame s P n payload
  rw [h]

theorem portDeliverOp_cap (P : Params) (sp : PortSpace) (port : U16) (payload : Bytes) (s : State) :
    (portDeliverOp P sp port payload s).cap = s.cap := by
  obtain ⟨d, k, h⟩ := portDeliverOp_frame s P sp port payload
  rw [h]

theorem beDemuxOp_cap (P : Params) (u : Bytes) (s : State) : (beDemuxOp P u s).cap = s.cap := by
  rcases beDemuxOp_cases s P u with ⟨-, h⟩ | ⟨port, payload, -, h⟩ <;> rw [h]
  · rfl
  · exact portDeliverOp_cap P .beport port payload s

theorem closeSock_cap (sid : SockId) (s : State) : (closeSock sid s).cap = s.cap := by
  obtain ⟨p, b, r, k, h⟩ := closeSock_frame s sid
  rw [h]

theorem bindOp_cap (sp : Space) (key : U16) (s : State) : (bindOp sp key s).1.cap = s.cap := by
  rcases bindOp_cases s sp key with ⟨e, h⟩ | ⟨-, -, -, h⟩ <;> rw [h]
  exact register_cap _ sp key s.nextSid

theorem closeOp_cap (sid : SockId) (s : State) : (closeOp sid s).1.cap = s.cap := by
  rcases closeOp_cases s sid with ⟨-, h⟩ | ⟨-, h⟩ <;> rw [h]
  exact closeSock_cap sid s

theorem recvOp_cap (sid : SockId) (s : State) : (recvOp sid s).1.cap = s.cap := by
  rcases recvOp_cases s sid with ⟨e, h⟩ | ⟨k, p, rest, -, -, -, h⟩ <;> rw [h]
  exact popQueue_cap s sid rest

theorem ifCloseOp_cap (s : State) : (ifCloseOp s).cap = s.cap := by
  cases ho : s.ifOpen with
  | false => rw [ifCloseOp_of_closed ho]
  | true =>
    obtain ⟨p, b, r, k, h⟩ := shutDown_frame s
    rw [ifCloseOp_of_open ho, h]

theorem tpAttachOp_cap (x : Bool) (s : State) : (tpAttachOp x s).1.cap = s.cap := by
  rcases tpAttachOp_cases s x with ⟨e, h⟩ | ⟨-, -, h⟩ <;> rw [h]

theorem tpDetachOp_cap (s : State) : (tpDetachOp s).1.cap = s.cap := by
  rcases tpDetachOp_cases s with ⟨-, h⟩ | ⟨-, h⟩ <;> rw [h]
  obtain ⟨p, b, r, k, hframe⟩ := detach_frame s
  rw [hframe]

theorem portForceCloseOp_cap (sp : PortSpace) (port : U16) (s : State) :
    (portForceCloseOp sp port s).cap = s.cap := by
  rcases portForceCloseOp_cases s sp port with ⟨-, h⟩ | ⟨sid, -, h⟩ <;> rw [h]
  exact closeSock_cap sid s

theorem execEnqueue_cap {sid : SockId} {payload : Bytes} {s t : State}
    (h : execEnqueue sid payload s = .next t) : t.cap = s.cap := by
  rcases execEnqueue_cases s sid payload with ⟨-, e⟩ | ⟨k, -, e⟩ <;> rw [e] at h <;> cases h
  exact pushQueue_cap s sid payload

/-! ### What is copied -/

theorem rxFrameOp_cap_of_datagram (P : Params) {f dg : Bytes} (s : State) (h : decodeFrame f = .ok dg) :
    (rxFrameOp P f s).cap = if s.capEn then s.cap ++ [0x00 :: dg] else s.cap := by
  rw [rxFrameOp, h]
  dsimp only
  cases hu : unencap dg with
  | error e => exact capture_cap s dirReceived dg
  | ok v => exact (dispatchOp_cap P v.1 v.2 _).trans (capture_cap s dirReceived dg)

/-! ### With the tap off `CAP` stays -/

theorem rxFrameOp_cap_of_tapOff (P : Params) (f : Bytes) {s : State} (hoff : s.capEn = false) :
    (rxFrameOp P f s).cap = s.cap := by
  cases h : decodeFrame f with
  | error e => rw [rxFrameOp_of_undecoded P s h]; rfl
  | ok dg => simp [rxFrameOp_cap_of_datagram P s h, hoff]

theorem rxByteOp_cap_of_tapOff (P : Params) (b : Byte) {s : State} (hoff : s.capEn = false) :
    (rxByteOp P b s).cap = s.cap := by
  rw [rxByteOp_eq_caseEffect]
  cases rxCase P b s
  case flagFrame => exact rxFrameOp_cap_of_tapOff P s.buf (s := { s with buf := [] }) hoff
  all_goals rfl

theorem txDatagramOp_cap_of_tapOff (n : U16) (payload : Bytes) {s : State} (hoff : s.capEn = false) :
    (txDatagramOp n payload s).cap = s.cap := by
  simp [txDatagramOp_eq, hoff]

theorem sendOp_cap_of_tapOff (sid : SockId) (payload : Bytes) {s : State} (hoff : s.capEn = false) :
    (sendOp sid payload s).1.cap = s.cap := by
  rcases sendOp_cases s sid payload with ⟨e, h⟩ | ⟨n, dg, h⟩ <;> rw [h]
  exact txDatagramOp_cap_of_tapOff n dg hoff

/-- The row of a case answers what `RX_BYTE` answers, whatever the state selects. -/
theorem rxRow_cap_of_tapOff {c : RxCase} {b : Byte} {s t : State} (hoff : s.capEn = false)
    (h : rxRow c b (caseEffect params c b s) s = .next t) : t.cap = s.cap := by
  rw [rxRow_eq_exec_rxByte, exec_rxByte] at h
  cases h
  exact rxByteOp_cap_of_tapOff params b hoff

/-- No instruction writes `CAP` with the tap off: the stream rows and the sends write it through the tap
alone, no other row writes it at all. -/
theorem exec_cap_of_tapOff {i : Instr} {s t : State} (hoff : s.capEn = false)
    (h : exec i s = .next t) : t.cap = s.cap := by
  cases i
  case rxByte b => cases h; exact rxByteOp_cap_of_tapOff params b hoff
  case rxIgnored b => exact rxRow_cap_of_tapOff (c := .ignored) (b := b) hoff h
  case syncFlag => exact rxRow_cap_of_tapOff (c := .syncFlag) (b := flag) hoff h
  case syncSkip b => exact rxRow_cap_of_tapOff (c := .syncSkip) (b := b) hoff h
  case flagEmpty => exact rxRow_cap_of_tapOff (c := .flagEmpty) (b := flag) hoff h
  case flagFrame => exact rxRow_cap_of_tapOff (c := .flagFrame) (b := flag) hoff h
  case collectData b => exact rxRow_cap_of_tapOff (c := .collectData) (b := b) hoff h
  case collectOverflow b => exact rxRow_cap_of_tapOff (c := .collectOverflow) (b := b) hoff h
  case rxFrame f => cases h; exact rxFrameOp_cap_of_tapOff params f hoff
  case txDatagram n payload => cases h; exact txDatagramOp_cap_of_tapOff n payload hoff
  case send sid payload | beSend sid payload | relSend sid payload =>
    cases h; exact sendOp_cap_of_tapOff sid payload hoff
  case bind sp key => cases h; exact bindOp_cap sp key s
  case close sid => cases h; exact closeOp_cap sid s
  case recv sid => cases h; exact recvOp_cap sid s
  case ifClose => cases h; exact ifCloseOp_cap s
  case tpAttach x => cases h; exact tpAttachOp_cap x s
  case tpDetach => cases h; exact tpDetachOp_cap s
  case portForceClose sp port => cases h; exact portForceCloseOp_cap sp port s
  case enqueue sid payload => exact execEnqueue_cap h
  case beDemux u => cases h; exact beDemuxOp_cap params u s
  case dispatch n payload => cases h; exact dispatchOp_cap params n payload s
  case protoLcp payload | protoBeNcp payload | protoBeData payload | protoRelNcp payload |
      protoRelCmd payload | protoRelRsp payload =>
    cases h; exact dispatchOp_cap params _ payload s
  case portDeliver sp port payload => cases h; exact portDeliverOp_cap params sp port payload s
  case relDeliver port payload => cases h; exact portDeliverOp_cap params .relport port payload s
  case pcmpPort sp payload => cases h; exact portDeliverOp_cap params sp pcmpPortNum payload s
  -- The pure functions, RX_CHUNK, the configuration commands and RESET: updates that do not name CAP.
  all_goals cases h; rfl

theorem step_cap_of_tapOff {s t : State} (hoff : s.capEn = false) (h : step s = .next t) :
    t.cap = s.cap := by
  rcases step_cases h with ⟨-, rfl⟩ | ⟨b, -, rfl⟩ | ⟨r, i, -, -, -, hexec⟩ | ⟨r, i, -, -, hexec⟩
  · rfl
  · exact rxByteOp_cap_of_tapOff params b (s := takeRxb s) hoff
  · exact exec_cap_of_tapOff (s := takeCmd s) hoff hexec
  · exact exec_cap_of_tapOff (s := takeBench s) hoff hexec

/-! ### The tap changes nothing else -/

/-- The state with the tap set to `en` and another history of `CAP`. -/
def retap (en : Bool) (c : List Bytes) (s : State) : State := { s with capEn := en, cap := c }

theorem capture_retap (en : Bool) (c : List Bytes) (dir : Byte) (dg : Bytes) (s : State) :
    ∃ c', capture dir dg (retap en c s) = retap en c' (capture dir dg s) := by
  rw [capture_eq, capture_eq]
  exact ⟨_, rfl⟩

theorem enqueueOp_retap (P : Params) (en : Bool) (c : List Bytes) (sid : SockId) (payload : Bytes)
    (s : State) : enqueueOp P sid payload (retap en c s) = retap en c (enqueueOp P sid payload s) := by
  have hlen : queueLen sid (retap en c s) = queueLen sid s := rfl
  rw [enqueueOp, enqueueOp, hlen]
  cases queueIsFull P (queueLen sid s) <;> rfl

theorem portDeliverOp_retap (P : Params) (en : Bool) (c : List Bytes) (sp : PortSpace) (port : U16)
    (payload : Bytes) (s : State) :
    portDeliverOp P sp port payload (retap en c s) =
      retap en c (portDeliverOp P sp port payload s) := by
  have hentry : portEntry sp port (retap en c s) = portEntry sp port s := rfl
  rw [portDeliverOp, portDeliverOp, hentry]
  cases portEntry sp port s with
  | none => rfl
  | some sid => exact enqueueOp_retap P en c sid payload s

theorem beDemuxOp_retap (P : Params) (en : Bool) (c : List Bytes) (u : Bytes) (s : State) :
    beDemuxOp P u (retap en c s) = retap en c (beDemuxOp P u s) := by
  rw [beDemuxOp, beDemuxOp]
  cases beParse u with
  | error e => rfl
  | ok v => exact portDeliverOp_retap P en c .beport v.1 v.2 s

theorem dispatchOp_retap (P : Params) (en : Bool) (c : List Bytes) (n : U16) (payload : Bytes)
    (s : State) : dispatchOp P n payload (retap en c s) = retap en c (dispatchOp P n payload s) := by
  have hproto : (retap en c s).proto = s.proto := rfl
  rw [dispatchOp, dispatchOp, hproto]
  rcases Store.find n.toNat s.proto with _ | sid | _
  · rfl
  · exact enqueueOp_retap P en c sid payload s
  · exact beDemuxOp_retap P en c payload s

theorem rxFrameOp_retap (P : Params) (en : Bool) (c : List Bytes) (f : Bytes) (s : State) :
    ∃ c', rxFrameOp P f (retap en c s) = retap en c' (rxFrameOp P f s) := by
  rw [rxFrameOp, rxFrameOp]
  cases decodeFrame f with
  | error e => exact ⟨c, rfl⟩
  | ok dg =>
    obtain ⟨c', hcapture⟩ := capture_retap en c dirReceived dg s
    dsimp only
    rw [hcapture]
    cases unencap dg with
    | error e => exact ⟨c', rfl⟩
    | ok v => exact ⟨c', dispatchOp_retap P en c' v.1 v.2 _⟩

theorem txDatagramOp_retap (en : Bool) (c : List Bytes) (n : U16) (payload : Bytes) (s : State) :
    ∃ c', txDatagramOp n payload (retap en c s) = retap en c' (txDatagramOp n payload s) := by
  obtain ⟨c', hcapture⟩ := capture_retap en c dirSent (encap n payload) s
  exact ⟨c', by rw [txDatagramOp, hcapture]; rfl⟩

/-- Settles O54 (R126): the tap's record is added before anything reads the datagram, and no operation behind
it reads the tap. -/
theorem captureTapCopiesIntactDatagrams : Obligations.CaptureTapCopiesIntactDatagrams := by
  refine ⟨fun f e s t he h => ?undecoded, fun f dg s hdg hon => ⟨_, exec_rxFrame f s, ?received⟩,
    fun n payload s hon => ⟨_, exec_txDatagram n payload s, ?sent⟩,
    fun s t hoff h => step_cap_of_tapOff hoff h, ?tapAlone⟩
  case undecoded =>
    rw [exec_rxFrame, rxFrameOp_of_undecoded params s he] at h
    cases h
    rfl
  case received => rw [rxFrameOp_cap_of_datagram params s hdg, if_pos hon]
  case sent => rw [txDatagramOp_eq, encap_eq_bytes16_append, if_pos hon, dirSent]
  case tapAlone =>
    rintro i en s (⟨f, rfl⟩ | ⟨n, payload, rfl⟩)
    · obtain ⟨c, hretap⟩ := rxFrameOp_retap params en s.cap f s
      exact ⟨_, retap en c _, exec_rxFrame f s, congrArg Host.Outcome.next hretap, rfl⟩
    · obtain ⟨c, hretap⟩ := txDatagramOp_retap en s.cap n payload s
      exact ⟨_, retap en c _, exec_txDatagram n payload s, congrArg Host.Outcome.next hretap, rfl⟩

end Sys2Proof.Machine
end

section
/-! The packet formats of the two transports (R135, R136, R143 to R145): every field in arithmetic, and one
equation of each builder and parser on the bytes of a packet. -/

namespace Sys2Proof.Machine

/-! ### The fields -/

theorem num16_lt (hi lo : Byte) : num16 hi lo < 65536 := by
  have hhi := hi.isLt
  have hlo := lo.isLt
  unfold num16
  omega

theorem toNat_fromBe16 (hi lo : Byte) : (fromBe16 hi lo).toNat = num16 hi lo := by
  rw [fromBe16_eq_ofNat_num16, BitVec.toNat_ofNat, Nat.mod_eq_of_lt (num16_lt hi lo)]

/-- A length that fits its field is stored as it is (R135, R143). -/
theorem be16_ofNat {n : Nat} (h : n ≤ 0xFFFF) : be16 (BitVec.ofNat 16 n) = bytes16 n := by
  rw [be16_eq_bytes16, BitVec.toNat_ofNat, Nat.mod_eq_of_lt (by omega)]

/-- A 7-bit field above a 1-bit field: the first is shifted clear of the second (R65, R66). -/
theorem ackByte_eq_ofNat (nr : Seq7) (pf : Bit1) :
    ackByte nr pf = BitVec.ofNat 8 (2 * nr.toNat + pf.toNat) := by
  have htoNat : (ackByte nr pf).toNat = 2 * nr.toNat + pf.toNat := by
    rw [ackByte, BitVec.toNat_append, ← Nat.shiftLeft_add_eq_or_of_lt pf.isLt, Nat.shiftLeft_eq,
      pow_one, Nat.mul_comm]
  rw [← htoNat, BitVec.ofNat_toNat, BitVec.setWidth_eq]

theorem infoByte0_eq_ofNat (ns : Seq7) : infoByte0 ns = BitVec.ofNat 8 (2 * ns.toNat) :=
  ackByte_eq_ofNat ns 0

theorem bits71_eq_ofNat (b : Byte) : bits71 b = BitVec.ofNat 7 (b.toNat / 2) := by
  rw [bits71, BitVec.extractLsb', Nat.shiftRight_eq_div_pow, pow_one]

theorem bit0_eq_ofNat (b : Byte) : bit0 b = BitVec.ofNat 1 b.toNat := rfl

theorem bits74_eq_zero_iff (b : Byte) : bits74 b = 0 ↔ b.toNat / 16 = 0 := by
  have hb := b.isLt
  rw [← BitVec.toNat_inj, bits74, BitVec.extractLsb'_toNat, Nat.shiftRight_eq_div_pow,
    Nat.mod_eq_of_lt (by omega)]
  rfl

theorem toNat_bits32 (b : Byte) : (bits32 b).toNat = b.toNat / 4 % 4 := by
  rw [bits32, BitVec.extractLsb'_toNat, Nat.shiftRight_eq_div_pow]

/-- The kind field takes four values and three of them are kinds (R66, R69). -/
theorem kindOf_bits32_cases (b : Byte) :
    (b.toNat / 4 % 4 = 0 ∧ kindOf (bits32 b) = some .rr) ∨
    (b.toNat / 4 % 4 = 1 ∧ kindOf (bits32 b) = some .rnr) ∨
    (b.toNat / 4 % 4 = 2 ∧ kindOf (bits32 b) = some .rej) ∨
    (b.toNat / 4 % 4 = 3 ∧ kindOf (bits32 b) = none) := by
  rw [← toNat_bits32]
  generalize bits32 b = k
  revert k
  decide

theorem inClass_info_iff (b : Byte) : inClass b 0x01 0x00 = true ↔ b.toNat % 2 = 0 := by
  rw [inClass, beq_iff_eq, ← BitVec.toNat_inj, BitVec.toNat_and]
  exact (Nat.and_two_pow_sub_one_eq_mod b.toNat 1).congr_left

theorem inClass_sup_iff (b : Byte) : inClass b 0x03 0x01 = true ↔ b.toNat % 4 = 1 := by
  rw [inClass, beq_iff_eq, ← BitVec.toNat_inj, BitVec.toNat_and]
  exact (Nat.and_two_pow_sub_one_eq_mod b.toNat 2).congr_left

/-! ### Best-effort packets (R135, R136) -/

theorem beBuild_eq (port : U16) (payload : Bytes) :
    beBuild port payload = if payload.length + 4 > 0xFFFF then none
      else some (bytes16 port.toNat ++ bytes16 (payload.length + 4) ++ payload) := by
  unfold beBuild
  split
  · rfl
  · next h => rw [be16_eq_bytes16, be16_ofNat (Nat.le_of_not_gt h)]

theorem beParse_of_length_lt {u : Bytes} (h : u.length < 4) : beParse u = .error .bePacketMalformed :=
  if_pos h

/-- The two tests of the length field have the same answer, so they are one condition; what stands behind
`length` is cut off unread. -/
theorem beParse_cons (p0 p1 l0 l1 : Byte) (rest : Bytes) :
    beParse (p0 :: p1 :: l0 :: l1 :: rest) =
      if num16 l0 l1 < 4 ∨ num16 l0 l1 > rest.length + 4 then .error .bePacketMalformed
      else .ok (BitVec.ofNat 16 (num16 p0 p1), rest.take (num16 l0 l1 - 4)) := by
  have hport : be16At (p0 :: p1 :: l0 :: l1 :: rest) 0 = BitVec.ofNat 16 (num16 p0 p1) :=
    fromBe16_eq_ofNat_num16 p0 p1
  have hlength : (be16At (p0 :: p1 :: l0 :: l1 :: rest) 2).toNat = num16 l0 l1 := toNat_fromBe16 l0 l1
  have hpayload : slice (p0 :: p1 :: l0 :: l1 :: rest) 4 (num16 l0 l1) = rest.take (num16 l0 l1 - 4) := rfl
  rw [beParse, if_neg (by simp), hport, hlength, hpayload, ite_or]
  rfl

theorem exec_beBuild (port : U16) (payload : Bytes) (s : State) :
    exec (.beBuild port payload) s = .next (replied (buildResult (beBuild port payload)) s) := rfl

theorem exec_beParse (u : Bytes) (s : State) :
    exec (.beParse u) s = .next (replied (pairResult (beParse u)) s) := rfl

/-- Settles O27 (R135, R136): one equation of the builder, and one of the parser for each clause. -/
theorem bestEffortPacketsAreBuiltAndParsed : Obligations.BestEffortPacketsAreBuiltAndParsed := by
  refine ⟨fun port payload s => ?build, fun u s h => ?short, fun p0 p1 l0 l1 rest s => ?parse⟩
  case build => rw [exec_beBuild, beBuild_eq, apply_ite buildResult]; rfl
  case short => rw [exec_beParse, beParse_of_length_lt h]; rfl
  case parse => rw [exec_beParse, beParse_cons, apply_ite pairResult]; rfl

/-! ### Building reliable packets (R143, R144) -/

theorem relBuildInfo_eq (ns nr : Seq7) (poll : Bit1) (port : U16) (payload : Bytes) :
    relBuildInfo ns nr poll port payload = if payload.length + 6 > 0xFFFF then none
      else some ([BitVec.ofNat 8 (2 * ns.toNat), BitVec.ofNat 8 (2 * nr.toNat + poll.toNat)]
        ++ bytes16 port.toNat ++ bytes16 (payload.length + 6) ++ payload) := by
  unfold relBuildInfo
  split
  · rfl
  · next h =>
    rw [infoByte0_eq_ofNat, ackByte_eq_ofNat, be16_eq_bytes16, be16_ofNat (Nat.le_of_not_gt h)]

theorem exec_relBuildInfo (ns nr : Seq7) (poll : Bit1) (port : U16) (payload : Bytes) (s : State) :
    exec (.relBuildInfo ns nr poll port payload) s =
      .next (replied (buildResult (relBuildInfo ns nr poll port payload)) s) := rfl

theorem exec_relBuildSup (kind : SupKind) (nr : Seq7) (pf : Bit1) (s : State) :
    exec (.relBuildSup kind nr pf) s =
      .next (replied (.bytes [supByte0 0 (kindBits kind), ackByte nr pf]) s) := rfl

/-- Settles O28 (R143, R144): every byte of the two builders in arithmetic. -/
theorem reliablePacketsAreBuiltFieldByField : Obligations.ReliablePacketsAreBuiltFieldByField := by
  refine ⟨fun ns nr poll port payload s => ?info, fun kind nr pf s => ?sup⟩
  case info => rw [exec_relBuildInfo, relBuildInfo_eq, apply_ite buildResult]; rfl
  case sup =>
    rw [exec_relBuildSup, ackByte_eq_ofNat]
    cases kind <;> rfl

/-! ### Parsing reliable packets (R145) -/

theorem relParse_of_length_lt (P : Params) {u : Bytes} (h : u.length < 2) :
    relParse P u = .error .relPacketMalformed := if_pos h

theorem relParse_of_info (P : Params) {u : Bytes} (hlen : 2 ≤ u.length)
    (h : (byteAt u 0).toNat % 2 = 0) : relParse P u = relParseInfo u := by
  rw [relParse, if_neg (Nat.not_lt.2 hlen), if_pos ((inClass_info_iff _).2 h)]

theorem relParse_of_sup (P : Params) {u : Bytes} (hlen : 2 ≤ u.length)
    (h : (byteAt u 0).toNat % 4 = 1) : relParse P u = relParseSup P.relReservedStrict u := by
  rw [relParse, if_neg (Nat.not_lt.2 hlen), if_neg (mt (inClass_info_iff _).1 (by omega)),
    if_pos ((inClass_sup_iff _).2 h)]

theorem relParse_of_undefined (P : Params) {u : Bytes} (h : (byteAt u 0).toNat % 4 = 3) :
    relParse P u = .error .relPacketMalformed := by
  rw [relParse, if_neg (mt (inClass_info_iff _).1 (by omega)),
    if_neg (mt (inClass_sup_iff _).1 (by omega)), ite_self]

theorem relParseInfo_of_length_lt {u : Bytes} (h : u.length < 6) :
    relParseInfo u = .error .relPacketMalformed := if_pos h

theorem relParseInfo_cons (b0 b1 p0 p1 l0 l1 : Byte) (rest : Bytes) :
    relParseInfo (b0 :: b1 :: p0 :: p1 :: l0 :: l1 :: rest) =
      if num16 l0 l1 < 6 ∨ num16 l0 l1 > rest.length + 6 then .error .relPacketMalformed
      else .ok (.info (BitVec.ofNat 7 (b0.toNat / 2)) (BitVec.ofNat 7 (b1.toNat / 2))
        (BitVec.ofNat 1 b1.toNat) (BitVec.ofNat 16 (num16 p0 p1)) (rest.take (num16 l0 l1 - 6))) := by
  have hport : be16At (b0 :: b1 :: p0 :: p1 :: l0 :: l1 :: rest) 2 = BitVec.ofNat 16 (num16 p0 p1) :=
    fromBe16_eq_ofNat_num16 p0 p1
  have hlength : (be16At (b0 :: b1 :: p0 :: p1 :: l0 :: l1 :: rest) 4).toNat = num16 l0 l1 :=
    toNat_fromBe16 l0 l1
  have hpayload : slice (b0 :: b1 :: p0 :: p1 :: l0 :: l1 :: rest) 6 (num16 l0 l1) =
      rest.take (num16 l0 l1 - 6) := rfl
  rw [relParseInfo, if_neg (by simp), hport, hlength, hpayload, ite_or, bits71_eq_ofNat, bits71_eq_ofNat,
    bit0_eq_ofNat]
  rfl

theorem relParseSup_cons (strict : Bool) (b0 b1 : Byte) (rest : Bytes) :
    relParseSup strict (b0 :: b1 :: rest) =
      if strict = true ∧ b0.toNat / 16 ≠ 0 then .error .relPacketMalformed
      else match kindOf (bits32 b0) with
        | none => .error .relPacketMalformed
        | some k => .ok (.sup k (BitVec.ofNat 7 (b1.toNat / 2)) (BitVec.ofNat 1 b1.toNat)) := by
  have hreserved : (strict && bits74 b0 != 0) = true ↔ strict = true ∧ b0.toNat / 16 ≠ 0 := by
    rw [Bool.and_eq_true, bne_iff_ne, ne_eq, bits74_eq_zero_iff]
  rw [← bits71_eq_ofNat, ← bit0_eq_ofNat]
  exact if_congr hreserved rfl rfl

theorem exec_relParse (u : Bytes) (s : State) :
    exec (.relParse u) s = .next (replied (relResult (relParse params u)) s) := rfl

/-- Settles O29 (R145): bits 1:0 of byte 0 select the branch, and each branch has one equation; the four
values of the kind field are split last. -/
theorem relParseClassifiesByByte0 : Obligations.RelParseClassifiesByByte0 := by
  refine ⟨fun u s h => ?short, fun u s hlen hshort hinfo => ?shortInfo,
    fun b0 b1 p0 p1 l0 l1 rest s hinfo => ?info, fun b0 b1 rest s hodd => ?sup⟩
  case short => rw [exec_relParse, relParse_of_length_lt params h]; rfl
  case shortInfo =>
    rw [exec_relParse, relParse_of_info params hlen hinfo, relParseInfo_of_length_lt hshort]; rfl
  case info =>
    have hlen : 2 ≤ (b0 :: b1 :: p0 :: p1 :: l0 :: l1 :: rest).length := Nat.le_add_left 2 _
    rw [exec_relParse, relParse_of_info params hlen hinfo, relParseInfo_cons, apply_ite relResult]
    rfl
  case sup =>
    rw [exec_relParse]
    by_cases hundef : b0.toNat % 4 = 3
    · rw [relParse_of_undefined params (u := b0 :: b1 :: rest) hundef, if_pos hundef]; rfl
    · have hsup : b0.toNat % 4 = 1 := by omega
      have hlen : 2 ≤ (b0 :: b1 :: rest).length := Nat.le_add_left 2 _
      rw [relParse_of_sup params hlen hsup, relParseSup_cons, apply_ite relResult, if_neg hundef]
      rcases kindOf_bits32_cases b0 with ⟨hn, hk⟩ | ⟨hn, hk⟩ | ⟨hn, hk⟩ | ⟨hn, hk⟩ <;>
        rw [hn, hk] <;> rfl

end Sys2Proof.Machine
end

section
/-! Delivery by port and the attaching of the switch (R137, R139, R140, R146): one equation of each operation
for each way it can go. -/

namespace Sys2Proof.Machine

/-! ### `PORT_DELIVER` and `REL_DELIVER` (R140, R146) -/

theorem portDeliverOp_of_unbound (P : Params) {sp : PortSpace} {port : U16} (payload : Bytes) {s : State}
    (h : portEntry sp port s = none) :
    portDeliverOp P sp port payload s = reported (causeCode (portNotOpen sp)) (some port.toNat) s := by
  rw [portDeliverOp, h]; rfl

theorem portDeliverOp_of_bound (P : Params) {sp : PortSpace} {port : U16} (payload : Bytes)
    {sid : SockId} {s : State} (h : portEntry sp port s = some sid) :
    portDeliverOp P sp port payload s = enqueueOp P sid payload s := by
  rw [portDeliverOp, h]

theorem exec_portDeliver (sp : PortSpace) (port : U16) (payload : Bytes) (s : State) :
    exec (.portDeliver sp port payload) s = .next (portDeliverOp params sp port payload s) := rfl

theorem exec_relDeliver (port : U16) (payload : Bytes) (s : State) :
    exec (.relDeliver port payload) s =
      .next (replied .ok (portDeliverOp params .relport port payload s)) := rfl

theorem exec_portDeliver_of_unbound {sp : PortSpace} {port : U16} (payload : Bytes) {s : State}
    (h : portEntry sp port s = none) : exec (.portDeliver sp port payload) s =
      .next (reported (causeCode (portNotOpen sp)) (some port.toNat) s) := by
  rw [exec_portDeliver, portDeliverOp_of_unbound params payload h]

theorem exec_portDeliver_of_bound {sp : PortSpace} {port : U16} (payload : Bytes) {sid : SockId}
    {s : State} (h : portEntry sp port s = some sid) :
    exec (.portDeliver sp port payload) s = .next (delivered sid payload s) := by
  rw [exec_portDeliver, portDeliverOp_of_bound params payload h, enqueueOp_params_eq_delivered]

/-- Settles O58 (R140, R146): the entry of the port in its own table selects the clause; with the unbounded
depth a delivery is a push. -/
theorem portDeliverMatchesThePort : Obligations.PortDeliverMatchesThePort := by
  refine fun port payload s => ⟨fun h => exec_portDeliver_of_unbound (sp := .beport) payload h,
    fun sid h => exec_portDeliver_of_bound (sp := .beport) payload h,
    fun h => ⟨exec_portDeliver_of_unbound (sp := .relport) payload h, ?relUnbound⟩,
    fun sid h => ⟨exec_portDeliver_of_bound (sp := .relport) payload h, ?relBound⟩⟩
  case relUnbound =>
    rw [exec_relDeliver, portDeliverOp_of_unbound params (sp := .relport) payload h]; rfl
  case relBound =>
    rw [exec_relDeliver, portDeliverOp_of_bound params (sp := .relport) payload h,
      enqueueOp_params_eq_delivered]

/-! ### `BE_DEMUX` (R139) -/

theorem beDemuxOp_of_malformed (P : Params) {u : Bytes} {e : Cause} (s : State)
    (h : beParse u = .error e) : beDemuxOp P u s = reported 0x07 (some u.length) s := by
  rw [beDemuxOp, h]; rfl

theorem beDemuxOp_of_parsed (P : Params) {u payload : Bytes} {port : U16} (s : State)
    (h : beParse u = .ok (port, payload)) : beDemuxOp P u s = portDeliverOp P .beport port payload s := by
  rw [beDemuxOp, h]

/-- Settles O57 (R139, R136): `BE_PARSE` decides, and neither of its answers reads the state, so neither
depends on `S.be_simplex`. -/
theorem beDemuxDeliversByPort : Obligations.BeDemuxDeliversByPort := by
  refine ⟨fun u s h => ?short, fun p0 p1 l0 l1 rest s =>
    ⟨fun hbad => ?malformed, fun hmin hmax => ⟨_, ?parsed, exec_portDeliver _ _ _ s⟩⟩⟩
  case short => rw [exec_beDemux, beDemuxOp_of_malformed params s (beParse_of_length_lt h)]
  case malformed =>
    have herror := (beParse_cons p0 p1 l0 l1 rest).trans (if_pos hbad)
    rw [exec_beDemux, beDemuxOp_of_malformed params s herror]; rfl
  case parsed =>
    have hok := (beParse_cons p0 p1 l0 l1 rest).trans (if_neg (by omega))
    rw [exec_beDemux, beDemuxOp_of_parsed params s hok]

/-! ### `TP_ATTACH` (R137) -/

theorem exec_tpAttach (x : Bool) (s : State) :
    exec (.tpAttach x) s = .next (replied (tpAttachOp x s).2 (tpAttachOp x s).1) := rfl

theorem tpAttachOp_of_closed (x : Bool) {s : State} (ho : s.ifOpen = false) :
    tpAttachOp x s = (s, .err .interfaceClosed) := by
  simp [tpAttachOp, ho]

theorem tpAttachOp_of_bound (x : Bool) {s : State} (ho : s.ifOpen = true)
    (hb : Store.has protoBeDataNum.toNat s.proto = true) : tpAttachOp x s = (s, .err .alreadyBound) := by
  simp [tpAttachOp, ho, hb]

theorem tpAttachOp_of_free (x : Bool) {s : State} (ho : s.ifOpen = true)
    (hb : Store.has protoBeDataNum.toNat s.proto = false) : tpAttachOp x s =
      ({ s with proto := Store.set protoBeDataNum.toNat .beSwitch s.proto, beSimplex := x }, .ok) := by
  simp [tpAttachOp, ho, hb]

/-- Settles O55 (R137): one equation of `TP_ATTACH` for each clause. -/
theorem attachBindsTheSwitch : Obligations.AttachBindsTheSwitch := by
  refine ⟨fun x s ho => ?closed, fun x s ho hb => ?bound,
    fun x s ho hb => ⟨_, ?free, fun n => Store.find_set n protoBeDataNum.toNat .beSwitch s.proto⟩⟩
  case closed => rw [exec_tpAttach, tpAttachOp_of_closed x ho]
  case bound =>
    rw [exec_tpAttach, tpAttachOp_of_bound x ho (Option.isSome_iff_ne_none.2 hb)]
  case free =>
    rw [exec_tpAttach, tpAttachOp_of_free x ho ((Store.has_false_iff _ _).2 hb)]
    rfl

end Sys2Proof.Machine
end

section
/-! `TP_DETACH` (R138): the port table lists the open best-effort sockets and no other (R32 items 2 and 3), so
closing what it lists empties it, touches no other registry, and leaves every best-effort socket shut. -/

namespace Sys2Proof.Machine

/-! ### What the port table lists -/

theorem Store.find_of_mem {α : Type} {t : Store α} (ht : Store.wf t = true) {k : Nat} {v : α}
    (h : (k, v) ∈ t) : Store.find k t = some v := by
  induction t with
  | nil => cases h
  | cons p t ih =>
    obtain ⟨k', v'⟩ := p
    obtain ⟨habove, ht⟩ := (Store.wf_cons k' v' t).1 ht
    rcases List.mem_cons.1 h with heq | hmem
    · cases heq
      exact if_pos rfl
    · exact (if_neg (habove _ hmem).ne).trans (ih ht hmem)

/-- An id is listed where a port has it as its entry: the keys are 16-bit numbers and none is hidden. -/
theorem mem_beport_iff {s : State} (hwf : Memory.wf s = true) (sid : SockId) :
    sid ∈ s.beport.map (·.2) ↔ ∃ port, entryIs .beport port sid s := by
  obtain ⟨-, ⟨hcanon, hkeys⟩, -, -⟩ := (Memory.wf_iff s).1 hwf
  constructor
  · intro h
    obtain ⟨⟨n, a⟩, hmem, rfl⟩ := List.mem_map.1 h
    have hn : n < 65536 := (Store.keys16_iff _).1 hkeys _ hmem
    refine ⟨BitVec.ofNat 16 n, ?_⟩
    rw [entryIs, BitVec.toNat_ofNat, Nat.mod_eq_of_lt hn]
    exact Store.find_of_mem hcanon hmem
  · rintro ⟨port, h⟩
    exact List.mem_map.2 ⟨_, Store.find_mem h, rfl⟩

/-- The ids listed are those of the open best-effort sockets (R32 items 2 and 3). -/
theorem mem_beport_iff_open {P : Params} {s : State} (hinv : Inv P s) {sid : SockId} {k : Socket}
    (hk : Store.find sid s.sock = some k) :
    sid ∈ s.beport.map (·.2) ↔ k.space = .beport ∧ k.closed = false := by
  rw [mem_beport_iff hinv.wf]
  constructor
  · rintro ⟨port, hentry⟩
    obtain ⟨k', hk', hspace, -, hopen⟩ := hinv.entriesOpen _ _ _ hentry
    obtain rfl : k = k' := Option.some.inj (hk.symm.trans hk')
    exact ⟨hspace, hopen⟩
  · rintro ⟨hspace, hopen⟩
    obtain ⟨hentry, -⟩ := hinv.openEntered sid k hk hopen
    exact ⟨k.key, hspace ▸ hentry⟩

/-! ### Closing best-effort sockets -/

/-- Whatever record the id has, it is a best-effort socket's. -/
def IsBeSocket (s : State) (sid : SockId) : Prop :=
  ∀ k, Store.find sid s.sock = some k → k.space = .beport

theorem isBeSocket_of_mem_beport {P : Params} {s : State} (hinv : Inv P s) {sid : SockId}
    (h : sid ∈ s.beport.map (·.2)) : IsBeSocket s sid :=
  fun _ hk => ((mem_beport_iff_open hinv hk).1 h).1

/-- Closing never changes the space of a socket. -/
theorem closeSock_keeps_isBeSocket (sid : SockId) {s : State} {a : SockId} (h : IsBeSocket s a) :
    IsBeSocket (closeSock sid s) a := by
  intro k hk
  rw [closeSock_find] at hk
  split at hk
  · obtain ⟨k', hk', rfl⟩ := Option.map_eq_some_iff.1 hk
    split <;> exact h k' hk'
  · exact h k hk

theorem closeSock_of_isBeSocket {s : State} {sid : SockId} (h : IsBeSocket s sid) :
    ∃ b k, closeSock sid s = { s with beport := b, sock := k } := by
  rcases closeSock_cases s sid with ⟨e, -⟩ | ⟨k, hk, -, e⟩
  · exact ⟨_, _, e⟩
  · rw [h k hk] at e
    exact ⟨_, _, e⟩

/-- Closing best-effort sockets touches only the port table and the socket store. -/
theorem closeAll_of_isBeSocket {sids : List SockId} {s : State} (h : ∀ sid ∈ sids, IsBeSocket s sid) :
    ∃ b k, closeAll sids s = { s with beport := b, sock := k } := by
  induction sids generalizing s with
  | nil => exact ⟨_, _, rfl⟩
  | cons sid sids ih =>
    obtain ⟨hsid, hsids⟩ := List.forall_mem_cons.1 h
    obtain ⟨b, k, e⟩ := closeSock_of_isBeSocket hsid
    obtain ⟨b', k', e'⟩ := ih fun a ha => closeSock_keeps_isBeSocket sid (hsids a ha)
    have hcons : closeAll (sid :: sids) s = closeAll sids (closeSock sid s) := rfl
    exact ⟨b', k', by rw [hcons, e', e]⟩

/-- Closing makes no entry. -/
theorem entryIs_of_entryIs_closeSock {sp : Space} {key : U16} {a sid : SockId} {s : State}
    (h : entryIs sp key a (closeSock sid s)) : entryIs sp key a s := by
  rcases closeSock_cases s sid with ⟨e, -⟩ | ⟨k, -, -, e⟩
  · rwa [e] at h
  · rw [e] at h
    exact ((entryIs_deleteEntry _ _ _ _ _ _).1 h).2

theorem entryIs_of_entryIs_closeAll {sp : Space} {key : U16} {a : SockId} {sids : List SockId} {s : State}
    (h : entryIs sp key a (closeAll sids s)) : entryIs sp key a s :=
  closeAll_keeps (I := fun t => entryIs sp key a t → entryIs sp key a s)
    (fun _ _ ih hentry => ih (entryIs_of_entryIs_closeSock hentry)) sids id h

/-! ### Closing what the port table lists -/

/-- An entry left behind would name a listed socket, hence a shut one, and entries name open sockets. -/
theorem closeAll_beport_eq_nil {P : Params} {s : State} (hinv : Inv P s) :
    (closeAll (s.beport.map (·.2)) s).beport = [] := by
  refine beport_eq_nil (closeAll_wf _ hinv.wf) fun port sid hentry => ?_
  have hkept := closeAll_keeps (fun sid _ h => closeSock_keeps_entriesOpen sid h) (s.beport.map (·.2))
    hinv.entriesOpen
  obtain ⟨k, hk, -, -, hopen⟩ := hkept .beport port sid hentry
  have hmem := (mem_beport_iff hinv.wf sid).2 ⟨port, entryIs_of_entryIs_closeAll hentry⟩
  rw [closeAll_find, if_pos hmem] at hk
  obtain ⟨k', -, rfl⟩ := Option.map_eq_some_iff.1 hk
  split at hopen
  · next hclosed => cases hclosed.symm.trans hopen
  · cases hopen

/-- A closed socket with an empty queue is shut already. -/
theorem Socket.shut_eq_self {k : Socket} (hc : k.closed = true) (hq : k.queue = []) : k.shut = k := by
  rw [Socket.shut, ← hc, ← hq]

/-- Every best-effort socket is shut: the open ones are listed, the closed ones have an empty queue already
(R32 item 8). -/
theorem find_closeAll_beport {P : Params} {s : State} (hinv : Inv P s) (a : SockId) :
    Store.find a (closeAll (s.beport.map (·.2)) s).sock =
      (Store.find a s.sock).map (fun k => if k.space = .beport then k.shut else k) := by
  rw [closeAll_find]
  cases hk : Store.find a s.sock with
  | none => exact ite_self _
  | some k =>
    simp only [mem_beport_iff_open hinv hk, Option.map_some]
    cases hc : k.closed with
    | false =>
      simp only [and_true, Bool.false_eq_true, if_false]
      exact (apply_ite some _ _ _).symm
    | true => simp [Socket.shut_eq_self hc (hinv.closedEmpty a k hk hc)]

/-! ### `TP_DETACH` -/

theorem exec_tpDetach (s : State) :
    exec .tpDetach s = .next (replied (tpDetachOp s).2 (tpDetachOp s).1) := rfl

theorem tpDetachOp_of_detached {s : State} (h : attached s = false) :
    tpDetachOp s = (s, .err .notAttached) := by
  simp [tpDetachOp, h]

theorem tpDetachOp_of_attached {s : State} (h : attached s = true) : tpDetachOp s = (detach s, .ok) := by
  simp [tpDetachOp, h]

theorem detach_eq {P : Params} {s : State} (hinv : Inv P s) :
    detach s =
      { s with
        proto := Store.del protoBeDataNum.toNat s.proto, beport := []
        sock := (closeAll (s.beport.map (·.2)) s).sock, beSimplex := false } := by
  have hnil := closeAll_beport_eq_nil hinv
  obtain ⟨b, k, hframe⟩ := closeAll_of_isBeSocket (sids := s.beport.map (·.2))
    fun _ h => isBeSocket_of_mem_beport hinv h
  rw [detach, hframe]
  rw [hframe] at hnil
  subst hnil
  rfl

/-- Settles O56 (R138): detaching is one update of the state (`detach_eq`), with the sockets read through
`find_closeAll_beport`. -/
theorem detachClosesEveryBestEffortPort : Obligations.DetachClosesEveryBestEffortPort := by
  refine ⟨fun s h => ?detached, fun s hinv h => ⟨_, _, ?attached,
    fun n => Store.find_del n protoBeDataNum.toNat s.proto, find_closeAll_beport hinv⟩⟩
  case detached => rw [exec_tpDetach, tpDetachOp_of_detached ((attached_eq_false_iff s).2 h)]
  case attached =>
    rw [exec_tpDetach, tpDetachOp_of_attached ((attached_iff s).2 h), detach_eq hinv]
    rfl

end Sys2Proof.Machine
end

section
/-! Fault entry (R151, R152, R155). -/

namespace Sys2Proof.Machine

/-- Settles O38 (R151, R152): `raise` of every cause is one event with the code of the cause
(`raise_eq_reported`), and the clauses read `causeCode` row by row. -/
theorem faultEntryIsOneEvent : Obligations.FaultEntryIsOneEvent := by
  intro info s
  simp only [raise_eq_reported, causeCode, and_self]

end Sys2Proof.Machine
end

section
/-! The algebra of CRC-32 (R81 to R84). In natural numbers the register need not stop at 32 bits, so a whole
string can be exclusive-ored into it as one little-endian number before the first bit is taken
(`foldl_crcNatByte`); every fact below is then one about `crcNatBit`, which is linear. -/

namespace Sys2Proof.Machine

/-! ### One bit of the register -/

theorem crcNatBit_xor (a b : Nat) : crcNatBit (a ^^^ b) = crcNatBit a ^^^ crcNatBit b := by
  unfold crcNatBit
  rw [Nat.xor_mod_two_eq, Nat.xor_div_two]
  rcases Nat.mod_two_eq_zero_or_one a with ha | ha <;> rcases Nat.mod_two_eq_zero_or_one b with hb | hb <;>
    simp [Nat.add_mod, ha, hb, Nat.xor_assoc, Nat.xor_left_comm, Nat.xor_comm]

theorem crcNatBit_shiftLeft_one (m : Nat) : crcNatBit (m <<< 1) = m := by
  rw [Nat.shiftLeft_eq, pow_one, crcNatBit, if_neg (by omega), Nat.mul_div_cancel m (by decide)]

theorem crcNatBit_lt {r : Nat} (h : r < 2 ^ 32) : crcNatBit r < 2 ^ 32 := by
  unfold crcNatBit
  split
  · exact Nat.xor_lt_two_pow (by omega) (by decide)
  · omega

/-- The polynomial has bit 31 and half of a 32-bit register has not, so an odd register never becomes 0. -/
theorem eq_zero_of_crcNatBit_eq_zero {r : Nat} (h : r < 2 ^ 32) (h0 : crcNatBit r = 0) : r = 0 := by
  unfold crcNatBit at h0
  split at h0
  · have hpoly := Nat.xor_eq_zero_iff.1 h0
    omega
  · omega

/-! ### Many bits -/

theorem iterate_crcNatBit_xor (n a b : Nat) :
    crcNatBit^[n] (a ^^^ b) = crcNatBit^[n] a ^^^ crcNatBit^[n] b := by
  induction n generalizing a b with
  | zero => rfl
  | succ n ih => simp only [Function.iterate_succ_apply, crcNatBit_xor, ih]

theorem iterate_crcNatBit_shiftLeft (n m : Nat) : crcNatBit^[n] (m <<< n) = m := by
  induction n with
  | zero => rfl
  | succ n ih => rw [Function.iterate_succ_apply, Nat.shiftLeft_add, crcNatBit_shiftLeft_one, ih]

theorem iterate_crcNatBit_lt (n : Nat) {r : Nat} (h : r < 2 ^ 32) : crcNatBit^[n] r < 2 ^ 32 := by
  induction n generalizing r with
  | zero => exact h
  | succ n ih => exact ih (crcNatBit_lt h)

theorem eq_zero_of_iterate_crcNatBit_eq_zero {n r : Nat} (h : r < 2 ^ 32) (h0 : crcNatBit^[n] r = 0) :
    r = 0 := by
  induction n generalizing r with
  | zero => exact h0
  | succ n ih => exact eq_zero_of_crcNatBit_eq_zero h (ih (crcNatBit_lt h) h0)

theorem iterate_crcNatBit_inj {n a b : Nat} (ha : a < 2 ^ 32) (hb : b < 2 ^ 32)
    (h : crcNatBit^[n] a = crcNatBit^[n] b) : a = b := by
  refine Nat.xor_eq_zero_iff.1 (eq_zero_of_iterate_crcNatBit_eq_zero (Nat.xor_lt_two_pow ha hb) (n := n) ?_)
  rw [iterate_crcNatBit_xor, h, Nat.xor_self]

/-! ### A string as one number -/

/-- A string as a little-endian number: the bits in the order the CRC takes them (`testBit_leNat`). -/
def leNat : Bytes → Nat
  | [] => 0
  | b :: d => b.toNat ^^^ leNat d <<< 8

theorem testBit_leNat (d : Bytes) (i : Nat) : (leNat d).testBit i = streamBit d i := by
  induction d generalizing i with
  | nil => simp [leNat, streamBit]
  | cons b d ih =>
    rw [leNat, Nat.testBit_xor, Nat.testBit_shiftLeft, BitVec.testBit_toNat]
    rcases Nat.lt_or_ge i 8 with h | h
    · simp [streamBit, Nat.div_eq_of_lt h, Nat.mod_eq_of_lt h, h, Nat.not_le.2 h]
    · obtain ⟨j, rfl⟩ := Nat.exists_eq_add_of_le h
      have hdiv : (8 + j) / 8 = j / 8 + 1 := by omega
      simp [ih, streamBit, hdiv]

theorem leNat_lt (d : Bytes) : leNat d < 2 ^ (8 * d.length) := by
  induction d with
  | nil => simp [leNat]
  | cons b d ih =>
    have hpow : 2 ^ (8 * (b :: d).length) = 2 ^ (8 * d.length) * 2 ^ 8 := by
      rw [List.length_cons, Nat.mul_succ, pow_add]
    refine Nat.xor_lt_two_pow (b.isLt.trans_le ?_) ?_
    · rw [hpow]; exact Nat.le_mul_of_pos_left _ (by positivity)
    · rw [hpow, Nat.shiftLeft_eq]; exact Nat.mul_lt_mul_of_pos_right ih (by positivity)

/-- Strings of one length with the same bits are the same string. -/
theorem leNat_inj {a b : Bytes} (hlen : a.length = b.length) (h : leNat a = leNat b) : a = b := by
  refine List.ext_getElem hlen fun j ha hb => BitVec.eq_of_getLsbD_eq fun k hk => ?_
  have hbit : streamBit a (8 * j + k) = streamBit b (8 * j + k) := by
    rw [← testBit_leNat, ← testBit_leNat, h]
  have hdiv : (8 * j + k) / 8 = j := by omega
  have hmod : (8 * j + k) % 8 = k := by omega
  simpa [streamBit, hdiv, hmod, ha, hb] using hbit

theorem leNat_zipWith_xor (a b : Bytes) (hlen : a.length = b.length) :
    leNat (List.zipWith (· ^^^ ·) a b) = leNat a ^^^ leNat b := by
  induction a generalizing b with
  | nil => cases b with
    | nil => rfl
    | cons y b => cases hlen
  | cons x a ih => cases b with
    | nil => cases hlen
    | cons y b =>
      rw [List.zipWith_cons_cons, leNat, leNat, leNat, ih b (by simpa using hlen), Nat.shiftLeft_xor_distrib,
        BitVec.toNat_xor]
      simp only [Nat.xor_assoc, Nat.xor_left_comm]

theorem leNat_replicate_zero (n : Nat) : leNat (List.replicate n 0) = 0 := by
  induction n with
  | zero => rfl
  | succ n ih => rw [List.replicate_succ, leNat, ih]; rfl

/-! ### The CRC of a string -/

/-- The register after a string: all of the string at once, then eight bits for each of its bytes. -/
theorem foldl_crcNatByte (d : Bytes) (r : Nat) :
    d.foldl crcNatByte r = crcNatBit^[8 * d.length] (r ^^^ leNat d) := by
  induction d generalizing r with
  | nil => simp [leNat]
  | cons b d ih =>
    rw [List.foldl_cons, ih, List.length_cons, Nat.mul_succ, Function.iterate_add_apply, leNat,
      ← Nat.xor_assoc, iterate_crcNatBit_xor 8, iterate_crcNatBit_shiftLeft, crcNatByte]

theorem crcNat_eq (d : Bytes) :
    crcNat d = crcNatBit^[8 * d.length] (0xFFFFFFFF ^^^ leNat d) ^^^ 0xFFFFFFFF := by
  rw [crcNat, foldl_crcNatByte]

theorem foldl_crcNatByte_lt (d : Bytes) : d.foldl crcNatByte 0xFFFFFFFF < 2 ^ 32 := by
  rw [← Nat.xor_xor_cancel_right (d.foldl crcNatByte 0xFFFFFFFF) 0xFFFFFFFF]
  exact Nat.xor_lt_two_pow (crcNat_lt d) (by decide)

theorem crc32_inj_iff (a b : Bytes) : crc32 a = crc32 b ↔ crcNat a = crcNat b := by
  rw [← toNat_crc32, ← toNat_crc32, BitVec.toNat_inj]

/-- Equal CRCs of strings of one length: the bits in which the strings differ leave the register 0. -/
theorem crcNat_eq_iff {a b : Bytes} (hlen : a.length = b.length) :
    crcNat a = crcNat b ↔ crcNatBit^[8 * a.length] (leNat a ^^^ leNat b) = 0 := by
  rw [crcNat_eq, crcNat_eq, ← hlen, Nat.xor_left_inj, iterate_crcNatBit_xor _ _ (leNat a),
    iterate_crcNatBit_xor _ _ (leNat b), Nat.xor_right_inj, iterate_crcNatBit_xor, Nat.xor_eq_zero_iff]

/-! ### The four bytes of a word -/

theorem extractLsb'_eq_ofNat (v : U32) (i : Nat) :
    v.extractLsb' i 8 = BitVec.ofNat 8 (v.toNat / 2 ^ i) := by
  apply BitVec.eq_of_toNat_eq
  rw [BitVec.extractLsb'_toNat, BitVec.toNat_ofNat, Nat.shiftRight_eq_div_pow]

theorem le32_crc32 (p : Bytes) : le32 (crc32 p) = fcsBytes p := by
  simp only [le32, extractLsb'_eq_ofNat, toNat_crc32, fcsBytes, pow_zero, Nat.div_one]

theorem length_le32 (v : U32) : (le32 v).length = 4 := rfl

theorem streamBit_le32 (v : U32) (i : Nat) : streamBit (le32 v) i = v.toNat.testBit i := by
  rw [BitVec.testBit_toNat]
  rcases Nat.lt_or_ge i 32 with h | h
  · have hi : i / 8 < 4 := by omega
    have hmod : i % 8 < 8 := Nat.mod_lt _ (by decide)
    have hsplit : 8 * (i / 8) + i % 8 = i := Nat.div_add_mod i 8
    unfold streamBit le32
    generalize i / 8 = j at *
    generalize i % 8 = k at *
    subst hsplit
    interval_cases j <;> simp [hmod]
  · obtain ⟨j, hj⟩ : ∃ j, i / 8 = j + 4 := ⟨i / 8 - 4, by omega⟩
    simp [streamBit, le32, hj, h]

theorem leNat_le32 (v : U32) : leNat (le32 v) = v.toNat :=
  Nat.eq_of_testBit_eq fun i => by rw [testBit_leNat, streamBit_le32]

theorem le32_ofNat_leNat {q : Bytes} (hq : q.length = 4) : le32 (BitVec.ofNat 32 (leNat q)) = q := by
  refine leNat_inj hq.symm ?_
  have hlt := leNat_lt q
  rw [hq] at hlt
  rw [leNat_le32, BitVec.toNat_ofNat, Nat.mod_eq_of_lt hlt]

/-! ### Linearity and bursts (R81) -/

/-- Three registers started alike and masked alike: start and mask stand three times on the right, and two
of the three cancel. -/
theorem xor_of_three_masked (start mask x y : Nat) :
    start ^^^ (x ^^^ y) ^^^ mask =
      start ^^^ x ^^^ mask ^^^ (start ^^^ y ^^^ mask) ^^^ (start ^^^ mask) := by
  refine Nat.eq_of_testBit_eq fun i => ?_
  simp only [Nat.testBit_xor]
  generalize start.testBit i = s, mask.testBit i = m, x.testBit i = a, y.testBit i = b
  revert s m a b
  decide

theorem crcNat_zipWith_xor {a b : Bytes} (hlen : a.length = b.length) :
    crcNat (List.zipWith (· ^^^ ·) a b) =
      crcNat a ^^^ crcNat b ^^^ crcNat (List.replicate a.length 0) := by
  have hzip : (List.zipWith (· ^^^ ·) a b).length = a.length := by simp [hlen]
  simp only [crcNat_eq, hzip, ← hlen, List.length_replicate, leNat_zipWith_xor a b hlen,
    leNat_replicate_zero, iterate_crcNatBit_xor, Nat.xor_zero]
  exact xor_of_three_masked _ _ _ _

theorem crc32_zipWith_xor {a b : Bytes} (hlen : a.length = b.length) :
    crc32 a ^^^ crc32 b ^^^ crc32 (List.replicate a.length 0) = crc32 (List.zipWith (· ^^^ ·) a b) := by
  apply BitVec.eq_of_toNat_eq
  simp only [BitVec.toNat_xor, toNat_crc32, crcNat_zipWith_xor hlen]

theorem crc32_le32_injective : Function.Injective fun v : U32 => crc32 (le32 v) := by
  intro v w h
  have hzero := (crcNat_eq_iff (by rfl)).1 ((crc32_inj_iff (le32 v) (le32 w)).1 h)
  rw [leNat_le32, leNat_le32] at hzero
  have hxor := eq_zero_of_iterate_crcNatBit_eq_zero (Nat.xor_lt_two_pow v.isLt w.isLt) hzero
  exact BitVec.eq_of_toNat_eq (Nat.xor_eq_zero_iff.1 hxor)

/-- Injective on the finitely many words, so onto them. -/
theorem existsUnique_crc32_eq (w : U32) : ∃! q : Bytes, q.length = 4 ∧ crc32 q = w := by
  obtain ⟨v, rfl⟩ := Finite.surjective_of_injective crc32_le32_injective w
  refine ⟨le32 v, ⟨rfl, rfl⟩, ?_⟩
  rintro q ⟨hq, hcrc⟩
  rw [← le32_ofNat_leNat hq] at hcrc ⊢
  exact congrArg le32 (crc32_le32_injective hcrc)

/-- The differing bits are a 32-bit number shifted up: the shift passes through the register unseen, and what
then stands in it is not 0. -/
theorem crc32_ne_of_burst {a b : Bytes} {k : Nat} (hlen : a.length = b.length) (hne : a ≠ b)
    (hagree : ∀ i, (i < k ∨ k + 32 ≤ i) → streamBit a i = streamBit b i) : crc32 a ≠ crc32 b := by
  intro hcrc
  have hzero := (crcNat_eq_iff hlen).1 ((crc32_inj_iff a b).1 hcrc)
  obtain ⟨m, hm, hshift⟩ : ∃ m, m < 2 ^ 32 ∧ leNat a ^^^ leNat b = m <<< k := by
    have hbit (i : Nat) (hi : i < k ∨ k + 32 ≤ i) : (leNat a ^^^ leNat b).testBit i = false := by
      rw [Nat.testBit_xor, testBit_leNat, testBit_leNat, hagree i hi, Bool.xor_self]
    refine ⟨(leNat a ^^^ leNat b) >>> k, Nat.lt_pow_two_of_testBit _ fun i hi => ?_,
      Nat.eq_of_testBit_eq fun i => ?_⟩
    · rw [Nat.testBit_shiftRight]
      exact hbit _ (Or.inr (by omega))
    · rw [Nat.testBit_shiftLeft, Nat.testBit_shiftRight]
      rcases Nat.lt_or_ge i k with hi | hi
      · rw [hbit i (Or.inl hi), decide_eq_false (Nat.not_le.2 hi), Bool.false_and]
      · rw [decide_eq_true hi, Bool.true_and, Nat.add_sub_cancel' hi]
  have hm0 : m ≠ 0 := by
    rintro rfl
    rw [Nat.zero_shiftLeft] at hshift
    exact hne (leNat_inj hlen (Nat.xor_eq_zero_iff.1 hshift))
  have hk : k ≤ 8 * a.length := by
    have hlt : m <<< k < 2 ^ (8 * a.length) :=
      hshift ▸ Nat.xor_lt_two_pow (leNat_lt a) (hlen ▸ leNat_lt b)
    have hle : 2 ^ k ≤ m <<< k := by
      rw [Nat.shiftLeft_eq]; exact Nat.le_mul_of_pos_left _ (Nat.pos_of_ne_zero hm0)
    exact (Nat.pow_lt_pow_iff_right (by decide)).1 (hle.trans_lt hlt) |>.le
  rw [hshift, ← Nat.sub_add_cancel hk, Function.iterate_add_apply, iterate_crcNatBit_shiftLeft] at hzero
  exact hm0 (eq_zero_of_iterate_crcNatBit_eq_zero hm hzero)

/-- Settles O14 (R81): linearity of the register, injectivity on 32-bit words, and both for a burst. -/
theorem crc32IsLinearAndDetectsBursts : Obligations.Crc32IsLinearAndDetectsBursts :=
  ⟨fun _ _ hlen => crc32_zipWith_xor hlen, existsUnique_crc32_eq,
    fun _ _ _ hlen hne hagree => crc32_ne_of_burst hlen hne hagree⟩

/-! ### The residue (R83, R84) -/

/-- The residue is the CRC of four zero bytes (R83): the register filled with ones, 32 bits later. -/
theorem residue_eq : 0x2144DF1C = crcNatBit^[32] 0xFFFFFFFF ^^^ 0xFFFFFFFF := by decide

/-- Behind a string whose register is `r`, four bytes lead to the residue exactly if they fill the register
with ones. -/
theorem crcNat_append_eq_residue_iff {q : Bytes} (p : Bytes) (hq : q.length = 4) :
    crcNat (p ++ q) = 0x2144DF1C ↔ leNat q = crcNat p := by
  have hlt := leNat_lt q
  rw [hq] at hlt
  have hreg := foldl_crcNatByte_lt p
  rw [residue_eq, crcNat, crcNat, List.foldl_append, foldl_crcNatByte q, hq, Nat.xor_left_inj]
  generalize p.foldl crcNatByte 0xFFFFFFFF = r at hreg ⊢
  constructor
  · intro h
    have hones := iterate_crcNatBit_inj (Nat.xor_lt_two_pow hreg hlt) (by decide) h
    rw [← hones, Nat.xor_xor_cancel_left]
  · intro h
    rw [h, Nat.xor_xor_cancel_left]

theorem crcNat_fcsAppend (p : Bytes) : crcNat (fcsAppend p) = 0x2144DF1C := by
  rw [fcsAppend, crcNat_append_eq_residue_iff p (length_le32 _), leNat_le32, toNat_crc32]

/-- A string of fewer than four bytes cannot fill the register: its top bits stay those of the ones shifted. -/
theorem crcNat_ne_residue_of_length_lt {d : Bytes} (h : d.length < 4) : crcNat d ≠ 0x2144DF1C := by
  intro hres
  have hlt := leNat_lt d
  have hd : leNat d < 2 ^ 32 := hlt.trans_le (Nat.pow_le_pow_right (by decide) (by omega))
  rw [crcNat_eq, residue_eq, Nat.xor_left_inj, ← Nat.add_sub_cancel' (show 8 * d.length ≤ 32 by omega),
    Function.iterate_add_apply] at hres
  have heq := iterate_crcNatBit_inj (Nat.xor_lt_two_pow (by decide) hd) (iterate_crcNatBit_lt _ (by decide)) hres
  have hval : leNat d = 0xFFFFFFFF ^^^ crcNatBit^[32 - 8 * d.length] 0xFFFFFFFF := by
    rw [← heq, Nat.xor_xor_cancel_left]
  rw [hval] at hlt
  generalize d.length = n at h hlt
  interval_cases n <;> revert hlt <;> decide

theorem length_fcsAppend (p : Bytes) : (fcsAppend p).length = p.length + 4 := by
  rw [fcsAppend, List.length_append, length_le32]

theorem fcsCheck_fcsAppend (p : Bytes) : fcsCheck (fcsAppend p) = .ok p := by
  have hbad : ¬((fcsAppend p).length < 4 ∨ crcNat (fcsAppend p) ≠ 0x2144DF1C) := by
    simp [length_fcsAppend, crcNat_fcsAppend]
  rw [fcsCheck_eq, if_neg hbad, length_fcsAppend, Nat.add_sub_cancel, fcsAppend, List.take_left]

theorem eq_fcsAppend_of_fcsCheck {d p : Bytes} (h : fcsCheck d = .ok p) : d = fcsAppend p := by
  rw [fcsCheck_eq] at h
  split at h
  · cases h
  · next hgood =>
    obtain ⟨hlen, hres⟩ := not_or.1 hgood
    cases h
    have hq : (d.drop (d.length - 4)).length = 4 := by rw [List.length_drop]; omega
    have hsplit := List.take_append_drop (d.length - 4) d
    have hle : leNat (d.drop (d.length - 4)) = crcNat (d.take (d.length - 4)) := by
      rw [← crcNat_append_eq_residue_iff _ hq, hsplit]
      exact not_not.1 hres
    rw [fcsAppend, crc32_eq_ofNat_crcNat, ← hle, le32_ofNat_leNat hq, hsplit]

/-- Settles O13 (R84): four bytes lead to the residue exactly if they are the CRC of what stands before them
(`crcNat_append_eq_residue_iff`). -/
theorem fcsCheckAcceptsExactlyFcsAppend : Obligations.FcsCheckAcceptsExactlyFcsAppend :=
  ⟨fun p => ⟨(crc32_eq_crcResidue_iff _).2 (crcNat_fcsAppend p), fcsCheck_fcsAppend p⟩,
    fun _ _ h => eq_fcsAppend_of_fcsCheck h⟩

theorem exec_fcsAppend (p : Bytes) (s : State) :
    exec (.fcsAppend p) s = .next (replied (.bytes (fcsAppend p)) s) := rfl

theorem exec_fcsCheck (d : Bytes) (s : State) :
    exec (.fcsCheck d) s = .next (replied (bytesResult (fcsCheck d)) s) := rfl

/-- Settles O12 (R82, R83): the four bytes of the CRC in arithmetic, and no short string has the residue. -/
theorem fcsIsAppendedLittleEndianAndChecked : Obligations.FcsIsAppendedLittleEndianAndChecked := by
  refine ⟨fun p s => ?append, fun d s => ?check, fun d h => crcNat_ne_residue_of_length_lt h⟩
  case append => rw [exec_fcsAppend, fcsAppend, le32_crc32]
  case check =>
    rw [exec_fcsCheck, fcsCheck_eq, apply_ite bytesResult, ite_or]
    rfl

end Sys2Proof.Machine
end

section
/-! Stuffing, one group at a time (R90 to R93): every string is a chain of blocks (`block_induction`), the
encoder writes one group for each and the decoder reads one group for each, so the laws of the round trip are
inductions over the blocks. -/

namespace Sys2Proof.Machine

/-! ### The blocks of a string -/

/-- The data bytes that one group can carry: no zero and at most `n` of them. -/
def Block (n : Nat) (x : Bytes) : Prop := (0 : Byte) ∉ x ∧ x.length ≤ n

/-- A string begins with 254 bytes that are not zero, or with fewer and then a zero byte, or it is such a
short block. -/
theorem block_cases (d : Bytes) :
    (∃ x e, Block 253 x ∧ d = x ++ 0 :: e) ∨ Block 253 d ∨
    ∃ x e, (0 : Byte) ∉ x ∧ x.length = 254 ∧ d = x ++ e := by
  have hsplit := List.takeWhile_append_dropWhile (p := (· != (0 : Byte))) (l := d)
  have hfree : (0 : Byte) ∉ d.takeWhile (· != 0) := fun h => by
    simpa using List.mem_takeWhile_imp h
  generalize d.takeWhile (· != 0) = x at hsplit hfree
  rcases Nat.lt_or_ge x.length 254 with hshort | hlong
  · cases hrest : d.dropWhile (· != 0) with
    | nil =>
      rw [hrest, List.append_nil] at hsplit
      exact Or.inr (Or.inl ⟨hsplit ▸ hfree, hsplit ▸ Nat.le_of_lt_succ hshort⟩)
    | cons b e =>
      have hb : b = 0 := by
        have hhead := List.head?_dropWhile_not (· != (0 : Byte)) d
        rw [hrest] at hhead
        simpa using hhead
      rw [hrest, hb] at hsplit
      exact Or.inl ⟨x, e, ⟨hfree, Nat.le_of_lt_succ hshort⟩, hsplit.symm⟩
  · refine Or.inr (Or.inr ⟨x.take 254, x.drop 254 ++ d.dropWhile (· != 0),
      fun h => hfree (List.mem_of_mem_take h), by simpa using hlong, ?_⟩)
    rw [← List.append_assoc, List.take_append_drop, hsplit]

/-- The induction the encoder follows: a short last block, a short block and its zero byte, a full last block,
a full block with more behind it. -/
theorem block_induction {motive : Bytes → Prop}
    (short : ∀ x, Block 253 x → motive x)
    (zero : ∀ x d, Block 253 x → motive d → motive (x ++ 0 :: d))
    (last : ∀ x, (0 : Byte) ∉ x → x.length = 254 → motive x)
    (full : ∀ x d, (0 : Byte) ∉ x → x.length = 254 → d ≠ [] → motive d → motive (x ++ d))
    (d : Bytes) : motive d := by
  induction hn : d.length using Nat.strong_induction_on generalizing d with
  | _ n ih =>
    rcases block_cases d with ⟨x, e, hx, rfl⟩ | hd | ⟨x, e, hx, hlen, rfl⟩
    · exact zero x e hx (ih e.length (by simp at hn; omega) e rfl)
    · exact short d hd
    · rcases eq_or_ne e [] with rfl | he
      · rw [List.append_nil]; exact last x hx hlen
      · exact full x e hx hlen he (ih e.length (by simp at hn; omega) e rfl)

/-! ### The encoder, block by block (R90) -/

theorem seg_of_short {x : Bytes} (last : Bool) (h : x.length ≤ 253) : seg x last = group x := by
  have hlt : x.length < 254 := by omega
  have hzero : ¬(last = true ∧ x ≠ [] ∧ x.length % 254 = 0) := by
    rintro ⟨-, hne, hmod⟩
    rw [Nat.mod_eq_of_lt hlt] at hmod
    exact hne (List.length_eq_zero_iff.1 hmod)
  rw [seg_eq_specSeg, specSeg_eq, fullBlocks_of_length_lt hlt, finalGroup_of_length_lt hlt, if_neg hzero,
    List.nil_append]

theorem seg_full_append {x y : Bytes} (last : Bool) (hx : x.length = 254) (hy : last = true → y ≠ []) :
    seg (x ++ y) last = 0xFF :: (x ++ seg y last) := by
  have hle : 254 ≤ (x ++ y).length := by simp [hx]
  have hmod : (x ++ y).length % 254 = y.length % 254 := by simp [hx]
  have hcond : (last = true ∧ x ++ y ≠ [] ∧ y.length % 254 = 0) ↔
      (last = true ∧ y ≠ [] ∧ y.length % 254 = 0) :=
    ⟨fun ⟨hl, _, hm⟩ => ⟨hl, hy hl, hm⟩, fun ⟨hl, hne, hm⟩ => ⟨hl, by simp [hne], hm⟩⟩
  have htake : (x ++ y).take 254 = x := by simp [← hx]
  have hdrop : (x ++ y).drop 254 = y := by simp [← hx]
  simp only [seg_eq_specSeg, specSeg_eq, fullBlocks_of_le_length hle, finalGroup_of_le_length hle, hmod, hcond,
    htake, hdrop, List.cons_append, List.append_assoc]

theorem seg_full_last {x : Bytes} (hx : x.length = 254) : seg x true = 0xFF :: x := by
  have hle : 254 ≤ x.length := hx.ge
  have hdrop : x.drop 254 = [] := by simp [hx]
  have htake : x.take 254 = x := List.take_of_length_le hx.le
  have hne : x ≠ [] := fun h => by simp [h] at hx
  rw [seg_eq_specSeg, specSeg_eq, fullBlocks_of_le_length hle, hdrop, htake, if_pos ⟨rfl, hne, by simp [hx]⟩,
    fullBlocks_of_length_lt (by simp), List.append_nil, List.append_nil]

theorem segments_append {x : Bytes} (hx : (0 : Byte) ∉ x) {d y : Bytes} {ss : List Bytes}
    (h : segments d = y :: ss) : segments (x ++ d) = (x ++ y) :: ss := by
  induction x with
  | nil => exact h
  | cons b x ih =>
    exact segments_cons_of_ne_zero (List.ne_of_not_mem_cons hx).symm (ih (List.not_mem_of_not_mem_cons hx))

theorem segments_eq_singleton_nil {d : Bytes} (h : segments d = [[]]) : d = [] := by
  rw [← joinZeros_segments d, h, joinZeros_singleton]

theorem encSegments_cons (x : Bytes) {ss : List Bytes} (h : ss ≠ []) :
    encSegments (x :: ss) = seg x false ++ encSegments ss := by
  obtain ⟨y, ss, rfl⟩ := List.exists_cons_of_ne_nil h
  rfl

theorem cobsEnc_of_short {x : Bytes} (hx : Block 253 x) : cobsEnc x = group x := by
  rw [cobsEnc, segments_of_zeroFree hx.1, encSegments, seg_of_short true hx.2]

theorem cobsEnc_append_zero {x : Bytes} (hx : Block 253 x) (d : Bytes) :
    cobsEnc (x ++ 0 :: d) = group x ++ cobsEnc d := by
  rw [cobsEnc, segments_append_zero hx.1, encSegments_cons x (segments_ne_nil d), seg_of_short false hx.2, cobsEnc]

theorem cobsEnc_of_full {x : Bytes} (hx : (0 : Byte) ∉ x) (hlen : x.length = 254) :
    cobsEnc x = 0xFF :: x := by
  rw [cobsEnc, segments_of_zeroFree hx, encSegments, seg_full_last hlen]

theorem cobsEnc_full_append {x d : Bytes} (hx : (0 : Byte) ∉ x) (hlen : x.length = 254) (hd : d ≠ []) :
    cobsEnc (x ++ d) = 0xFF :: (x ++ cobsEnc d) := by
  obtain ⟨y, ss, hseg⟩ := List.exists_cons_of_ne_nil (segments_ne_nil d)
  rw [cobsEnc, cobsEnc, segments_append hx hseg, hseg]
  cases ss with
  | nil =>
    have hy : y ≠ [] := fun h => hd (segments_eq_singleton_nil (h ▸ hseg))
    exact seg_full_append true hlen fun _ => hy
  | cons z ss =>
    rw [encSegments, encSegments, seg_full_append false hlen (fun h => by cases h), List.cons_append,
      List.append_assoc]

theorem cobsEnc_nil : cobsEnc [] = [0x01] := rfl

/-! ### The decoder, group by group (R92) -/

/-- The number of turns does not matter once it covers the string. -/
theorem cobsDecGo_eq_of_le {fuel fuel' : Nat} {c : Bytes} (h : c.length ≤ fuel) (h' : c.length ≤ fuel') :
    cobsDecGo fuel c = cobsDecGo fuel' c := by
  induction fuel generalizing fuel' c with
  | zero =>
    obtain rfl : c = [] := List.length_eq_zero_iff.1 (Nat.le_zero.1 h)
    cases fuel' <;> rfl
  | succ fuel ih =>
    cases c with
    | nil => cases fuel' <;> rfl
    | cons code rest =>
      obtain ⟨fuel', rfl⟩ : ∃ n, fuel' = n + 1 := Nat.exists_eq_add_one.2 (by simp at h'; omega)
      have hdrop := List.length_drop (i := code.toNat - 1) (l := rest)
      rw [List.length_cons] at h h'
      rw [cobsDecGo_cons, cobsDecGo_cons, ih (fuel' := fuel') (by omega) (by omega)]

theorem cobsDec_cons (code : Byte) (rest : Bytes) :
    cobsDec (code :: rest) =
      if code = 0 then none
      else if rest.length < code.toNat - 1 then none
      else if (0 : Byte) ∈ rest.take (code.toNat - 1) then none
      else if rest.length = code.toNat - 1 then some (rest.take (code.toNat - 1))
      else (cobsDec (rest.drop (code.toNat - 1))).map
        (rest.take (code.toNat - 1) ++ (if code ≠ 0xFF then [0] else []) ++ ·) := by
  have hdrop := List.length_drop (i := code.toNat - 1) (l := rest)
  rw [cobsDec, List.length_cons, cobsDecGo_cons, cobsDec,
    cobsDecGo_eq_of_le (fuel := rest.length) (by omega) le_rfl]

/-- One group and what is left behind it. -/
theorem cobsDec_group_append {code : Byte} {x : Bytes} (hcode : code ≠ 0) (hx : x.length = code.toNat - 1)
    (rest : Bytes) :
    cobsDec (code :: (x ++ rest)) =
      if (0 : Byte) ∈ x then none
      else if rest = [] then some x
      else (cobsDec rest).map (x ++ (if code ≠ 0xFF then [0] else []) ++ ·) := by
  have hlast : (x ++ rest).length = x.length ↔ rest = [] := by simp
  rw [cobsDec_cons, if_neg hcode, ← hx, if_neg (by simp), List.take_left, List.drop_left]
  simp only [hlast]

theorem cobsDec_of_truncated {code : Byte} {rest : Bytes} (h : rest.length < code.toNat - 1) :
    cobsDec (code :: rest) = none := by
  rw [cobsDec_cons, if_pos h, ite_self]

theorem cobsDec_zero_cons (rest : Bytes) : cobsDec (0 :: rest) = none := by
  rw [cobsDec_cons, if_pos rfl]

/-! ### The groups the encoder writes -/

theorem toNat_groupCode {x : Bytes} (h : x.length ≤ 253) :
    (BitVec.ofNat 8 (x.length + 1)).toNat = x.length + 1 := by
  rw [BitVec.toNat_ofNat, Nat.mod_eq_of_lt (by omega)]

theorem groupCode_ne_zero {x : Bytes} (h : x.length ≤ 253) : BitVec.ofNat 8 (x.length + 1) ≠ 0 := by
  intro h0
  have := congrArg BitVec.toNat h0
  rw [toNat_groupCode h] at this
  cases this

theorem groupCode_ne_full {x : Bytes} (h : x.length ≤ 253) : BitVec.ofNat 8 (x.length + 1) ≠ 0xFF := by
  intro hfull
  have := congrArg BitVec.toNat hfull
  rw [toNat_groupCode h] at this
  have : x.length + 1 = 255 := this
  omega

/-- A code byte that is not 0xFF is the one `group` writes before its data bytes. -/
theorem group_of_length_eq {code : Byte} {x : Bytes} (hcode : code ≠ 0) (hx : x.length = code.toNat - 1) :
    group x = code :: x := by
  have hpos : code.toNat ≠ 0 := fun h => hcode (BitVec.eq_of_toNat_eq h)
  rw [group, hx, Nat.sub_add_cancel (by omega), BitVec.ofNat_toNat, BitVec.setWidth_eq]

theorem cobsDec_group_last {x : Bytes} (hx : Block 253 x) : cobsDec (group x) = some x := by
  obtain ⟨hfree, hlen⟩ := hx
  have hgroup := cobsDec_group_append (groupCode_ne_zero hlen) (x := x)
    (by rw [toNat_groupCode hlen, Nat.add_sub_cancel]) []
  rw [List.append_nil, if_neg hfree, if_pos rfl] at hgroup
  exact hgroup

theorem cobsDec_group {x : Bytes} (hx : Block 253 x) {rest : Bytes} (hrest : rest ≠ []) :
    cobsDec (group x ++ rest) = (cobsDec rest).map (x ++ 0 :: ·) := by
  obtain ⟨hfree, hlen⟩ := hx
  have hgroup := cobsDec_group_append (groupCode_ne_zero hlen) (x := x)
    (by rw [toNat_groupCode hlen, Nat.add_sub_cancel]) rest
  rw [if_neg hfree, if_neg hrest] at hgroup
  rw [if_pos (groupCode_ne_full hlen)] at hgroup
  simpa [group] using hgroup

theorem cobsDec_full_last {x : Bytes} (hx : (0 : Byte) ∉ x) (hlen : x.length = 254) :
    cobsDec (0xFF :: x) = some x := by
  have hgroup := cobsDec_group_append (code := 0xFF) (by decide) hlen []
  rw [List.append_nil, if_neg hx, if_pos rfl] at hgroup
  exact hgroup

theorem cobsDec_full {x : Bytes} (hx : (0 : Byte) ∉ x) (hlen : x.length = 254) {rest : Bytes}
    (hrest : rest ≠ []) : cobsDec (0xFF :: (x ++ rest)) = (cobsDec rest).map (x ++ ·) := by
  rw [cobsDec_group_append (by decide) hlen, if_neg hx, if_neg hrest]
  simp

/-! ### The round trip (R93) -/

theorem cobsEnc_ne_nil (d : Bytes) : cobsEnc d ≠ [] := by
  induction d using block_induction with
  | short x hx => rw [cobsEnc_of_short hx]; simp [group]
  | zero x d hx ih => rw [cobsEnc_append_zero hx]; simp [group]
  | last x hx hlen => rw [cobsEnc_of_full hx hlen]; simp
  | full x d hx hlen hd ih => rw [cobsEnc_full_append hx hlen hd]; simp

theorem cobsDec_cobsEnc (d : Bytes) : cobsDec (cobsEnc d) = some d := by
  induction d using block_induction with
  | short x hx => rw [cobsEnc_of_short hx, cobsDec_group_last hx]
  | zero x d hx ih => rw [cobsEnc_append_zero hx, cobsDec_group hx (cobsEnc_ne_nil d), ih, Option.map_some]
  | last x hx hlen => rw [cobsEnc_of_full hx hlen, cobsDec_full_last hx hlen]
  | full x d hx hlen hd ih =>
    rw [cobsEnc_full_append hx hlen hd, cobsDec_full hx hlen (cobsEnc_ne_nil d), ih, Option.map_some]

theorem cobsEnc_injective : Function.Injective cobsEnc := fun d d' h =>
  Option.some.inj (by rw [← cobsDec_cobsEnc d, h, cobsDec_cobsEnc])

/-! ### Strings that end in a full group -/

/-- The last segment of a string. -/
def lastSegment (d : Bytes) : Bytes := (segments d).getLast (segments_ne_nil d)

theorem lastSegment_of_segments {d x : Bytes} {ss : List Bytes} (h : segments d = ss ++ [x]) :
    lastSegment d = x := by
  simp [lastSegment, h]

theorem endsFull_iff (d : Bytes) :
    EndsFull d ↔ lastSegment d ≠ [] ∧ (lastSegment d).length % 254 = 0 := by
  constructor
  · rintro ⟨ss, x, hfree, rfl, hne, hmod⟩
    rw [lastSegment_of_segments (segments_joinZeros hfree)]
    exact ⟨hne, hmod⟩
  · rintro ⟨hne, hmod⟩
    have hsplit : (segments d).dropLast ++ [lastSegment d] = segments d :=
      List.dropLast_append_getLast (segments_ne_nil d)
    refine ⟨(segments d).dropLast, lastSegment d, ?_, ?_, hne, hmod⟩
    · rw [hsplit]; exact zeroFree_segments d
    · rw [hsplit, joinZeros_segments]

theorem endsFull_of_zeroFree_iff {x : Bytes} (hx : (0 : Byte) ∉ x) :
    EndsFull x ↔ x ≠ [] ∧ x.length % 254 = 0 := by
  rw [endsFull_iff, lastSegment_of_segments (ss := []) (segments_of_zeroFree hx)]

theorem endsFull_append_zero_iff {x : Bytes} (hx : (0 : Byte) ∉ x) (d : Bytes) :
    EndsFull (x ++ 0 :: d) ↔ EndsFull d := by
  have hlast : lastSegment (x ++ 0 :: d) = lastSegment d := by
    simp only [lastSegment, segments_append_zero hx, List.getLast_cons (segments_ne_nil d)]
  rw [endsFull_iff, endsFull_iff, hlast]

theorem endsFull_full_append_iff {x d : Bytes} (hx : (0 : Byte) ∉ x) (hlen : x.length = 254) (hd : d ≠ []) :
    EndsFull (x ++ d) ↔ EndsFull d := by
  rw [endsFull_iff, endsFull_iff]
  obtain ⟨y, ss, hseg⟩ := List.exists_cons_of_ne_nil (segments_ne_nil d)
  rcases List.eq_nil_or_concat ss with rfl | ⟨ss, z, rfl⟩
  · have hy : y ≠ [] := fun h => hd (segments_eq_singleton_nil (h ▸ hseg))
    rw [lastSegment_of_segments (ss := []) hseg, lastSegment_of_segments (ss := []) (segments_append hx hseg)]
    simp [hy, hlen]
  · rw [List.concat_eq_append] at hseg
    rw [lastSegment_of_segments (ss := y :: ss) hseg,
      lastSegment_of_segments (ss := (x ++ y) :: ss) (segments_append hx hseg)]

theorem not_endsFull_of_short {x : Bytes} (hx : Block 253 x) : ¬EndsFull x := by
  obtain ⟨hfree, hlen⟩ := hx
  rw [endsFull_of_zeroFree_iff hfree, Nat.mod_eq_of_lt (by omega), List.length_eq_zero_iff]
  exact fun h => h.1 h.2

/-- A full last group may be followed by the group of an empty segment: it stands for no zero byte. -/
theorem cobsDec_cobsEnc_append_one {d : Bytes} (h : EndsFull d) : cobsDec (cobsEnc d ++ [0x01]) = some d := by
  induction d using block_induction with
  | short x hx => exact absurd h (not_endsFull_of_short hx)
  | zero x d hx ih =>
    rw [cobsEnc_append_zero hx, List.append_assoc, cobsDec_group hx (by simp),
      ih ((endsFull_append_zero_iff hx.1 d).1 h), Option.map_some]
  | last x hx hlen =>
    rw [cobsEnc_of_full hx hlen, List.cons_append, cobsDec_full hx hlen (by simp), ← cobsEnc_nil,
      cobsDec_cobsEnc, Option.map_some, List.append_nil]
  | full x d hx hlen hd ih =>
    rw [cobsEnc_full_append hx hlen hd, List.cons_append, List.append_assoc, cobsDec_full hx hlen (by simp),
      ih ((endsFull_full_append_iff hx hlen hd).1 h), Option.map_some]

/-- A string is the encoding of `d`, or that and the group of an empty segment where `d` ends in a full
group. -/
def EncodesTo (d c : Bytes) : Prop := c = cobsEnc d ∨ c = cobsEnc d ++ [0x01] ∧ EndsFull d

theorem EncodesTo.append_zero {x d c : Bytes} (hx : Block 253 x) (h : EncodesTo d c) :
    EncodesTo (x ++ 0 :: d) (group x ++ c) := by
  rcases h with rfl | ⟨rfl, hfull⟩
  · exact Or.inl (cobsEnc_append_zero hx d).symm
  · exact Or.inr ⟨by rw [cobsEnc_append_zero hx, List.append_assoc], (endsFull_append_zero_iff hx.1 d).2 hfull⟩

/-- Behind a full group an empty rest is the exception: its encoding is the group the encoder leaves out. -/
theorem EncodesTo.full_append {x d c : Bytes} (hx : (0 : Byte) ∉ x) (hlen : x.length = 254)
    (h : EncodesTo d c) : EncodesTo (x ++ d) (0xFF :: (x ++ c)) := by
  rcases eq_or_ne d [] with rfl | hd
  · have hc : c = cobsEnc [] := h.resolve_right fun ⟨_, hfull⟩ =>
      not_endsFull_of_short ⟨by simp, by simp⟩ hfull
    have hne : x ≠ [] := fun h => by simp [h] at hlen
    rw [List.append_nil, hc, cobsEnc_nil]
    exact Or.inr ⟨by rw [cobsEnc_of_full hx hlen, List.cons_append],
      (endsFull_of_zeroFree_iff hx).2 ⟨hne, by rw [hlen]⟩⟩
  · rcases h with rfl | ⟨rfl, hfull⟩
    · exact Or.inl (cobsEnc_full_append hx hlen hd).symm
    · exact Or.inr ⟨by rw [cobsEnc_full_append hx hlen hd, List.cons_append, List.append_assoc],
        (endsFull_full_append_iff hx hlen hd).2 hfull⟩

/-- The string a decoded string came from, read off one group at a time. -/
theorem encodesTo_of_cobsDec {c d : Bytes} (h : cobsDec c = some d) : EncodesTo d c := by
  induction hn : c.length using Nat.strong_induction_on generalizing c d with
  | _ n ih =>
    cases c with
    | nil => cases h
    | cons code rest =>
      have hcode : code ≠ 0 := by
        rintro rfl
        rw [cobsDec_zero_cons] at h
        cases h
      have hfits : code.toNat - 1 ≤ rest.length := Nat.not_lt.1 fun hlt => by
        rw [cobsDec_of_truncated hlt] at h
        cases h
      obtain ⟨x, tail, rfl, hx⟩ : ∃ x tail, rest = x ++ tail ∧ x.length = code.toNat - 1 :=
        ⟨_, _, (List.take_append_drop (code.toNat - 1) rest).symm, List.length_take_of_le hfits⟩
      have hfree : (0 : Byte) ∉ x := fun hmem => by
        rw [cobsDec_group_append hcode hx, if_pos hmem] at h
        cases h
      rcases eq_or_ne code 0xFF with rfl | hshort
      · rcases eq_or_ne tail [] with rfl | htail
        · rw [List.append_nil, cobsDec_full_last hfree hx] at h
          cases h
          exact Or.inl (by rw [List.append_nil, cobsEnc_of_full hfree hx])
        · rw [cobsDec_full hfree hx htail] at h
          obtain ⟨out, hout, rfl⟩ := Option.map_eq_some_iff.1 h
          exact (ih tail.length (by simp at hn; omega) hout rfl).full_append hfree hx
      · have hblock : Block 253 x := ⟨hfree, by rw [hx]; bv_omega⟩
        have hgroup := group_of_length_eq hcode hx
        rw [← List.cons_append, ← hgroup] at h ⊢
        rcases eq_or_ne tail [] with rfl | htail
        · rw [List.append_nil] at h ⊢
          rw [cobsDec_group_last hblock] at h
          cases h
          exact Or.inl (cobsEnc_of_short hblock).symm
        · rw [cobsDec_group hblock htail] at h
          obtain ⟨out, hout, rfl⟩ := Option.map_eq_some_iff.1 h
          exact (ih tail.length (by simp at hn; omega) hout rfl).append_zero hblock

/-- Settles O18 (R93): the decoder takes back each block the encoder wrote, and a decoded string is read back
to its encoding in the same way (`encodesTo_of_cobsDec`). -/
theorem cobsDecInvertsCobsEnc : Obligations.CobsDecInvertsCobsEnc :=
  ⟨cobsDec_cobsEnc, fun _ _ h => encodesTo_of_cobsDec h, fun _ h => cobsDec_cobsEnc_append_one h⟩

end Sys2Proof.Machine
end

section
/-! What stuffing costs (R91), and the code bytes run as rows (R62, R92). -/

namespace Sys2Proof.Machine

/-! ### No zero byte -/

theorem zero_not_mem_group {x : Bytes} (hx : Block 253 x) : (0 : Byte) ∉ group x :=
  List.not_mem_cons_of_ne_of_not_mem (groupCode_ne_zero hx.2).symm hx.1

theorem zero_not_mem_cobsEnc (d : Bytes) : (0 : Byte) ∉ cobsEnc d := by
  induction d using block_induction with
  | short x hx => rw [cobsEnc_of_short hx]; exact zero_not_mem_group hx
  | zero x d hx ih =>
    rw [cobsEnc_append_zero hx, List.mem_append, not_or]
    exact ⟨zero_not_mem_group hx, ih⟩
  | last x hx hlen =>
    rw [cobsEnc_of_full hx hlen]
    exact List.not_mem_cons_of_ne_of_not_mem (by decide) hx
  | full x d hx hlen hd ih =>
    rw [cobsEnc_full_append hx hlen hd]
    exact List.not_mem_cons_of_ne_of_not_mem (by decide) (by rw [List.mem_append, not_or]; exact ⟨hx, ih⟩)

/-! ### The exact length -/

theorem length_fullBlocks (x : Bytes) : (fullBlocks x).length = 255 * (x.length / 254) := by
  induction hn : x.length using Nat.strong_induction_on generalizing x with
  | _ n ih =>
    subst hn
    rcases Nat.lt_or_ge x.length 254 with hshort | hlong
    · rw [fullBlocks_of_length_lt hshort, Nat.div_eq_of_lt hshort]; rfl
    · have hdrop : (x.drop 254).length = x.length - 254 := List.length_drop
      have htake : (x.take 254).length = 254 := List.length_take_of_le hlong
      have hrest := ih (x.drop 254).length (by omega) _ rfl
      rw [fullBlocks_of_le_length hlong, List.length_cons, List.length_append, hrest]
      omega

theorem length_finalGroup (x : Bytes) : (finalGroup x).length = x.length % 254 + 1 := by
  rw [finalGroup, List.length_cons, List.length_drop]
  omega

/-- A segment grows by a code byte for each full block and one for its final group, if that is not left
out. -/
theorem length_specSeg (x : Bytes) (last : Bool) :
    (specSeg x last).length + (if last = true ∧ x ≠ [] ∧ x.length % 254 = 0 then 1 else 0) =
      x.length + x.length / 254 + 1 := by
  rw [specSeg_eq, List.length_append, length_fullBlocks]
  split
  · next h =>
    obtain ⟨-, -, hmod⟩ := h
    rw [List.length_nil]
    omega
  · rw [length_finalGroup]
    omega

theorem length_specSeg_false (x : Bytes) : (specSeg x false).length = x.length + x.length / 254 + 1 := by
  simpa using length_specSeg x false

theorem specSegs_cons (x : Bytes) {ss : List Bytes} (h : ss ≠ []) :
    specSegs (x :: ss) = specSeg x false ++ specSegs ss := by
  obtain ⟨y, ss, rfl⟩ := List.exists_cons_of_ne_nil h
  rfl

theorem length_specSegs (ss : List Bytes) (x : Bytes) :
    (specSegs (ss ++ [x])).length + (if x ≠ [] ∧ x.length % 254 = 0 then 1 else 0) =
      (joinZeros (ss ++ [x])).length + 1 + ((ss ++ [x]).map (fun y => y.length / 254)).sum := by
  induction ss with
  | nil =>
    have hseg := length_specSeg x true
    simp only [true_and] at hseg
    rw [List.nil_append, specSegs, hseg, joinZeros_singleton, List.map_singleton, List.sum_singleton]
    omega
  | cons y ss ih =>
    rw [List.cons_append, specSegs_cons y (by simp), joinZeros_cons y (by simp), List.length_append,
      List.length_append, List.length_cons, List.map_cons, List.sum_cons, length_specSeg_false]
    omega

theorem length_cobsEnc_joinZeros {ss : List Bytes} {x : Bytes} (h : ZeroFree (ss ++ [x])) :
    (cobsEnc (joinZeros (ss ++ [x]))).length + (if x ≠ [] ∧ x.length % 254 = 0 then 1 else 0) =
      (joinZeros (ss ++ [x])).length + 1 + ((ss ++ [x]).map (fun y => y.length / 254)).sum := by
  rw [cobsEnc_joinZeros h, length_specSegs]

/-- Segments below 254 bytes have no full block, so each costs one byte. -/
theorem length_cobsEnc_of_short_segments {ss : List Bytes} (h : ZeroFree ss)
    (hshort : ∀ x ∈ ss, x.length < 254) : (cobsEnc (joinZeros ss)).length = (joinZeros ss).length + 1 := by
  have hne : ss ≠ [] := h.1
  obtain ⟨init, x, rfl⟩ := (List.eq_nil_or_concat' ss).resolve_left hne
  have hlen := length_cobsEnc_joinZeros h
  have hx : ¬(x ≠ [] ∧ x.length % 254 = 0) := by
    rw [Nat.mod_eq_of_lt (hshort x (by simp)), List.length_eq_zero_iff]
    exact fun h => h.1 h.2
  have hsum : ((init ++ [x]).map (fun y => y.length / 254)).sum = 0 := by
    refine List.sum_eq_zero fun n hn => ?_
    obtain ⟨y, hy, rfl⟩ := List.mem_map.1 hn
    exact Nat.div_eq_of_lt (hshort y hy)
  rwa [if_neg hx, hsum] at hlen

/-! ### Bounds -/

theorem length_group (x : Bytes) : (group x).length = x.length + 1 := rfl

theorem length_lt_length_cobsEnc (d : Bytes) : d.length + 1 ≤ (cobsEnc d).length := by
  induction d using block_induction with
  | short x hx => rw [cobsEnc_of_short hx, length_group]
  | zero x d hx ih =>
    rw [cobsEnc_append_zero hx]
    simp only [List.length_append, List.length_cons, length_group]
    omega
  | last x hx hlen => rw [cobsEnc_of_full hx hlen, List.length_cons]
  | full x d hx hlen hd ih =>
    rw [cobsEnc_full_append hx hlen hd]
    simp only [List.length_append, List.length_cons]
    omega

/-- The upper bound, written so that it holds of the empty string too. -/
theorem length_cobsEnc_le (d : Bytes) : (cobsEnc d).length ≤ d.length + (d.length - 1) / 254 + 1 := by
  induction d using block_induction with
  | short x hx => rw [cobsEnc_of_short hx, length_group]; omega
  | zero x d hx ih =>
    rw [cobsEnc_append_zero hx]
    simp only [List.length_append, List.length_cons, length_group]
    omega
  | last x hx hlen => rw [cobsEnc_of_full hx hlen, List.length_cons]; omega
  | full x d hx hlen hd ih =>
    have hpos := List.length_pos_iff.2 hd
    rw [cobsEnc_full_append hx hlen hd]
    simp only [List.length_append, List.length_cons]
    omega

theorem length_cobsEnc_of_zeroFree {d : Bytes} (h : (0 : Byte) ∉ d) :
    (cobsEnc d).length = d.length + (d.length - 1) / 254 + 1 := by
  induction d using block_induction with
  | short x hx =>
    have hlen : x.length ≤ 253 := hx.2
    rw [cobsEnc_of_short hx, length_group]
    omega
  | zero x d hx ih => simp at h
  | last x hx hlen => rw [cobsEnc_of_full hx hlen, List.length_cons]; omega
  | full x d hx hlen hd ih =>
    have hpos := List.length_pos_iff.2 hd
    have hrest := ih fun hmem => h (List.mem_append_right x hmem)
    rw [cobsEnc_full_append hx hlen hd]
    simp only [List.length_append, List.length_cons, hrest]
    omega

/-- Settles O16 (R91): the exact length from the closed form of R90, the rest block by block. -/
theorem cobsEncIsZeroFreeAndBounded : Obligations.CobsEncIsZeroFreeAndBounded := by
  refine ⟨zero_not_mem_cobsEnc, fun ss x h => length_cobsEnc_joinZeros h, rfl,
    fun d hd => ⟨length_lt_length_cobsEnc d, ?upper⟩,
    fun ss h hshort => length_cobsEnc_of_short_segments h hshort, fun d hd hfree => ?zeroFree,
    fun d d' h => cobsEnc_injective h⟩
  case upper =>
    have hle := length_cobsEnc_le d
    have hpos := List.length_pos_iff.2 hd
    omega
  case zeroFree =>
    have hpos := List.length_pos_iff.2 hd
    rw [length_cobsEnc_of_zeroFree hfree]
    omega

/-! ### The code bytes as rows (R62; log entry 11) -/

theorem exec_cobsCodeIllegal (rest : Bytes) (s : State) :
    exec (.cobsCodeIllegal rest) s = .next (replied (cobsResult (cobsDec (0x00 :: rest))) s) := rfl

theorem exec_cobsCodeFull (rest : Bytes) (s : State) :
    exec (.cobsCodeFull rest) s = .next (replied (cobsResult (cobsDec (0xFF :: rest))) s) := rfl

theorem exec_cobsCodeShort (code : Byte) (rest : Bytes) (s : State) :
    exec (.cobsCodeShort code rest) s = .next (replied (cobsResult (cobsDec (code :: rest))) s) := rfl

/-- Settles O19 (R62, R92): each row answers what `COBS_DEC` answers, which reads one group
(`cobsDec_group_append`). -/
theorem cobsCodeRowsTakeTheirGroup : Obligations.CobsCodeRowsTakeTheirGroup := by
  refine ⟨fun rest s => ?illegal, fun code blk rest s hzero hfull hlen => ?short,
    fun code rest s hzero hfull hlen => ?truncatedShort, fun blk rest s hlen => ?full,
    fun rest s hlen => ?truncatedFull⟩
  case illegal => rw [exec_cobsCodeIllegal, cobsDec_zero_cons]; rfl
  case short =>
    rw [exec_cobsCodeShort, cobsDec_group_append hzero hlen, apply_ite cobsResult, apply_ite cobsResult,
      if_pos hfull]
    cases cobsDec rest with
    | none => rfl
    | some out => simp [cobsResult]
  case truncatedShort => rw [exec_cobsCodeShort, cobsDec_of_truncated hlen]; rfl
  case full =>
    rw [exec_cobsCodeFull, cobsDec_group_append (by decide) hlen, apply_ite cobsResult, apply_ite cobsResult]
    cases cobsDec rest with
    | none => rfl
    | some out => simp [cobsResult]
  case truncatedFull => rw [exec_cobsCodeFull, cobsDec_of_truncated (code := 0xFF) hlen]; rfl

end Sys2Proof.Machine
end

section
/-! The swap of `FLAG` and zero, and the wire frame (R94 to R96, R100, R101, R103). -/

namespace Sys2Proof.Machine

/-! ### The swaps (R94 to R96) -/

/-- What `SWAP_OUT` does to one byte. -/
def outByte (b : Byte) : Byte := if b = 0x55 then 0x00 else b

/-- What `SWAP_IN` does to one byte. -/
def inByte (b : Byte) : Byte := if b = 0x00 then 0x55 else b

theorem swapOut_eq_map (c : Bytes) : swapOut c = c.map outByte := rfl

theorem swapIn_eq_map (f : Bytes) : swapIn f = f.map inByte := rfl

theorem outByte_ne_flag (b : Byte) : outByte b ≠ 0x55 := by
  unfold outByte
  split
  · decide
  · assumption

theorem inByte_ne_zero (b : Byte) : inByte b ≠ 0x00 := by
  unfold inByte
  split
  · decide
  · assumption

theorem inByte_outByte {b : Byte} (h : b ≠ 0x00) : inByte (outByte b) = b := by
  unfold outByte
  split
  · next hflag => rw [hflag]; rfl
  · exact if_neg h

theorem outByte_inByte {b : Byte} (h : b ≠ 0x55) : outByte (inByte b) = b := by
  unfold inByte
  split
  · next hzero => rw [hzero]; rfl
  · exact if_neg h

theorem length_swapOut (c : Bytes) : (swapOut c).length = c.length := List.length_map _

theorem length_swapIn (f : Bytes) : (swapIn f).length = f.length := List.length_map _

theorem flag_not_mem_swapOut (c : Bytes) : (0x55 : Byte) ∉ swapOut c := by
  rw [swapOut_eq_map, List.mem_map]
  rintro ⟨b, -, hb⟩
  exact outByte_ne_flag b hb

theorem zero_not_mem_swapIn (f : Bytes) : (0 : Byte) ∉ swapIn f := by
  rw [swapIn_eq_map, List.mem_map]
  rintro ⟨b, -, hb⟩
  exact inByte_ne_zero b hb

theorem swapIn_swapOut {c : Bytes} (h : (0 : Byte) ∉ c) : swapIn (swapOut c) = c := by
  rw [swapIn_eq_map, swapOut_eq_map, List.map_map]
  exact (List.map_congr_left fun b hb => inByte_outByte fun h0 => h (h0 ▸ hb)).trans (List.map_id c)

theorem swapOut_swapIn {f : Bytes} (h : (0x55 : Byte) ∉ f) : swapOut (swapIn f) = f := by
  rw [swapIn_eq_map, swapOut_eq_map, List.map_map]
  exact (List.map_congr_left fun b hb => outByte_inByte fun h0 => h (h0 ▸ hb)).trans (List.map_id f)

theorem getD_map_of_lt (g : Byte → Byte) {c : Bytes} {i : Nat} (h : i < c.length) :
    (c.map g).getD i 0 = g (c.getD i 0) := by
  simp [h]

theorem exec_swapOut (c : Bytes) (s : State) :
    exec (.swapOut c) s = .next (replied (.bytes (swapOut c)) s) := rfl

theorem exec_swapIn (f : Bytes) (s : State) :
    exec (.swapIn f) s = .next (replied (.bytes (swapIn f)) s) := rfl

/-- Settles O20 (R94 to R96): both swaps are maps of a function on bytes, and the two functions are inverse to
each other but for the byte the other never makes. -/
theorem swapsAreInverseBytewiseMaps : Obligations.SwapsAreInverseBytewiseMaps :=
  ⟨fun c s => ⟨swapOut c, exec_swapOut c s, length_swapOut c, fun _ hi => getD_map_of_lt outByte hi⟩,
    fun f s => ⟨swapIn f, exec_swapIn f s, length_swapIn f, zero_not_mem_swapIn f,
      fun _ hi => getD_map_of_lt inByte hi⟩,
    fun c h => ⟨flag_not_mem_swapOut c, swapIn_swapOut h⟩,
    fun f h => ⟨zero_not_mem_swapIn f, swapOut_swapIn h⟩⟩

/-! ### The wire frame (R100, R101) -/

theorem encodeFrame_eq (p : Bytes) :
    encodeFrame p = [0x55] ++ swapOut (cobsEnc (fcsAppend p)) ++ [0x55] := rfl

theorem contents_encodeFrame (p : Bytes) : contents (encodeFrame p) = swapOut (cobsEnc (fcsAppend p)) := by
  simp [contents, encodeFrame_eq]

theorem encodeFrame_eq_contents (p : Bytes) : encodeFrame p = [0x55] ++ contents (encodeFrame p) ++ [0x55] := by
  rw [contents_encodeFrame, encodeFrame_eq]

theorem flag_not_mem_contents (p : Bytes) : (0x55 : Byte) ∉ contents (encodeFrame p) := by
  rw [contents_encodeFrame]
  exact flag_not_mem_swapOut _

theorem length_contents (p : Bytes) : (contents (encodeFrame p)).length = (cobsEnc (fcsAppend p)).length := by
  rw [contents_encodeFrame, length_swapOut]

theorem contents_ne_nil (p : Bytes) : contents (encodeFrame p) ≠ [] := by
  rw [← List.length_pos_iff, length_contents, List.length_pos_iff]
  exact cobsEnc_ne_nil _

theorem length_encodeFrame_sub_two (p : Bytes) :
    (encodeFrame p).length - 2 = (contents (encodeFrame p)).length := by
  rw [contents_encodeFrame, encodeFrame_eq]
  simp

/-! ### The round trip of the codec (R103 (a)) -/

/-- Each stage of the decoder takes back its stage of the encoder. -/
theorem decodeFrame_contents (p : Bytes) : decodeFrame (contents (encodeFrame p)) = .ok p := by
  have hunstuffed : cobsDec (swapIn (contents (encodeFrame p))) = some (fcsAppend p) := by
    rw [contents_encodeFrame, swapIn_swapOut (zero_not_mem_cobsEnc _), cobsDec_cobsEnc]
  rw [decodeFrame_of_unstuffed (flag_not_mem_contents p) hunstuffed, fcsCheck_fcsAppend]

/-- Settles O23 (R103 (a)): the contents of a frame decode to its datagram (`decodeFrame_contents`). -/
theorem decodeFrameInvertsEncodeFrame : Obligations.DecodeFrameInvertsEncodeFrame := fun p s => by
  rw [exec_decodeFrame, decodeFrame_contents, bytesResult]

theorem encodeFrame_injective : Function.Injective encodeFrame := fun p p' h =>
  Except.ok.inj (by rw [← decodeFrame_contents p, h, decodeFrame_contents])

theorem exec_encodeFrame (p : Bytes) (s : State) :
    exec (.encodeFrame p) s = .next (replied (.bytes (encodeFrame p)) s) := rfl

/-- Settles O21 (R100, R101): the contents are swapped and so hold no `FLAG`, their length is that of the
stuffed string, and a frame decodes to one datagram only. -/
theorem encodeFrameHasNoInnerFlag : Obligations.EncodeFrameHasNoInnerFlag := by
  refine ⟨fun p s => ?frame, fun p => ⟨encodeFrame_eq_contents p, flag_not_mem_contents p⟩,
    fun p => ⟨?lower, ?upper⟩, fun p p' h => encodeFrame_injective h⟩
  case frame => rw [exec_encodeFrame, encodeFrame_eq, fcsAppend, le32_crc32]
  case lower =>
    have hlt := length_lt_length_cobsEnc (fcsAppend p)
    rwa [length_fcsAppend, ← length_contents] at hlt
  case upper =>
    have hle := length_cobsEnc_le (fcsAppend p)
    rw [length_fcsAppend, ← length_contents] at hle
    omega

end Sys2Proof.Machine
end

section
/-! The datagram header and the packet formats, built and read back (R66 to R69, R115 to R117, R135, R136, R143
to R145). -/

namespace Sys2Proof.Machine

/-! ### Sixteen bits in two bytes (R9) -/

theorem num16_bytes16 {n : Nat} (h : n < 65536) :
    num16 (BitVec.ofNat 8 (n / 256)) (BitVec.ofNat 8 n) = n := by
  rw [num16, BitVec.toNat_ofNat, BitVec.toNat_ofNat]
  omega

theorem fromBe16_bytes16 (n : U16) :
    fromBe16 (BitVec.ofNat 8 (n.toNat / 256)) (BitVec.ofNat 8 n.toNat) = n := by
  rw [fromBe16_eq_ofNat_num16, num16_bytes16 n.isLt, BitVec.ofNat_toNat, BitVec.setWidth_eq]

theorem bytes16_fromBe16 (hi lo : Byte) : bytes16 (fromBe16 hi lo).toNat = [hi, lo] := by
  have hlo := lo.isLt
  have hhiPart : (fromBe16 hi lo).toNat / 256 = hi.toNat := by rw [toNat_fromBe16, num16]; omega
  have hloPart : BitVec.ofNat 8 (fromBe16 hi lo).toNat = lo := by
    apply BitVec.eq_of_toNat_eq
    rw [BitVec.toNat_ofNat, toNat_fromBe16, num16]
    omega
  rw [bytes16, hhiPart, hloPart, BitVec.ofNat_toNat, BitVec.setWidth_eq]

/-! ### The datagram header (R115 to R117) -/

theorem exec_encap (n : U16) (payload : Bytes) (s : State) :
    exec (.encap n payload) s = .next (replied (.bytes (encap n payload)) s) := rfl

theorem exec_unencap (d : Bytes) (s : State) :
    exec (.unencap d) s = .next (replied (pairResult (unencap d)) s) := rfl

theorem unencap_encap (n : U16) (payload : Bytes) : unencap (encap n payload) = .ok (n, payload) := by
  rw [encap_eq_bytes16_append, bytes16, List.cons_append, List.cons_append, List.nil_append, unencap_cons_cons,
    num16_bytes16 n.isLt, BitVec.ofNat_toNat, BitVec.setWidth_eq]

theorem encap_of_unencap {d payload : Bytes} {n : U16} (h : unencap d = .ok (n, payload)) :
    encap n payload = d := by
  match d with
  | [] => cases h
  | [b] => cases h
  | hi :: lo :: rest =>
    rw [unencap_cons_cons, ← fromBe16_eq_ofNat_num16] at h
    cases h
    rw [encap_eq_bytes16_append, bytes16_fromBe16]
    rfl

/-- Settles O26 (R115 to R117): one equation of each function, and the two bytes of a number are read back as
the number (`unencap_encap`, `encap_of_unencap`). -/
theorem datagramHeaderIsTwoBigEndianBytes : Obligations.DatagramHeaderIsTwoBigEndianBytes := by
  refine ⟨fun n payload s => ?encap, fun d s h => ?short, fun hi lo payload s => ?unencap, unencap_encap,
    fun d n payload _ h => encap_of_unencap h⟩
  case encap => rw [exec_encap, encap_eq_bytes16_append]
  case short => rw [exec_unencap, unencap_of_length_lt h]; rfl
  case unencap => rw [exec_unencap, unencap_cons_cons]; rfl

/-! ### Fields of a byte (R65 to R67) -/

theorem toNat_ackByte (nr : Seq7) (pf : Bit1) : (ackByte nr pf).toNat = 2 * nr.toNat + pf.toNat := by
  have hnr := nr.isLt
  have hpf := pf.isLt
  rw [ackByte_eq_ofNat, BitVec.toNat_ofNat, Nat.mod_eq_of_lt (by omega)]

theorem bits71_ackByte (nr : Seq7) (pf : Bit1) : bits71 (ackByte nr pf) = nr := by
  have hpf := pf.isLt
  rw [bits71_eq_ofNat, toNat_ackByte, show (2 * nr.toNat + pf.toNat) / 2 = nr.toNat by omega,
    BitVec.ofNat_toNat, BitVec.setWidth_eq]

theorem bit0_ackByte (nr : Seq7) (pf : Bit1) : bit0 (ackByte nr pf) = pf := by
  have hpf := pf.isLt
  apply BitVec.eq_of_toNat_eq
  rw [bit0_eq_ofNat, toNat_ackByte, BitVec.toNat_ofNat]
  omega

theorem infoByte0_eq_ackByte (ns : Seq7) : infoByte0 ns = ackByte ns 0 := rfl

theorem toNat_supByte0 (res : BitVec 4) (kind : BitVec 2) :
    (supByte0 res kind).toNat = 16 * res.toNat + 4 * kind.toNat + 1 := by
  revert res kind
  decide

theorem bits32_supByte0 (res : BitVec 4) (kind : BitVec 2) : bits32 (supByte0 res kind) = kind := by
  revert res kind
  decide

theorem kindOf_kindBits (kind : SupKind) : kindOf (kindBits kind) = some kind := by
  cases kind <;> rfl

/-! ### Packets by their byte 0 -/

theorem relParse_singleton (P : Params) (b0 : Byte) : relParse P [b0] = .error .relPacketMalformed :=
  relParse_of_length_lt P (u := [b0]) (Nat.lt_succ_self 1)

theorem relParse_infoByte0 (P : Params) (ns : Seq7) (b1 : Byte) (rest : Bytes) :
    relParse P (infoByte0 ns :: b1 :: rest) = relParseInfo (infoByte0 ns :: b1 :: rest) := by
  have hinfo : (infoByte0 ns).toNat % 2 = 0 := by
    rw [infoByte0_eq_ackByte, toNat_ackByte]
    exact Nat.mul_mod_right 2 ns.toNat
  exact relParse_of_info P (u := infoByte0 ns :: b1 :: rest) (Nat.le_add_left 2 _) hinfo

/-! ### Built packets are read back (R68) -/

theorem beParse_of_beBuild {port : U16} {payload pkt : Bytes} (h : beBuild port payload = some pkt)
    (pad : Bytes) : beParse (pkt ++ pad) = .ok (port, payload) := by
  rw [beBuild_eq] at h
  split at h
  · cases h
  · next hlen =>
    cases h
    simp only [bytes16, List.cons_append, List.nil_append, beParse_cons,
      num16_bytes16 (n := payload.length + 4) (by omega), num16_bytes16 port.isLt]
    rw [if_neg (by simp), Nat.add_sub_cancel, List.take_left, BitVec.ofNat_toNat, BitVec.setWidth_eq]

theorem relParse_of_relBuildInfo {ns nr : Seq7} {poll : Bit1} {port : U16} {payload pkt : Bytes}
    (P : Params) (h : relBuildInfo ns nr poll port payload = some pkt) (pad : Bytes) :
    relParse P (pkt ++ pad) = .ok (.info ns nr poll port payload) := by
  unfold relBuildInfo at h
  split at h
  · cases h
  · next hlen =>
    cases h
    rw [be16_eq_bytes16, be16_ofNat (by omega)]
    simp only [bytes16, List.cons_append, List.nil_append, relParse_infoByte0, relParseInfo_cons,
      num16_bytes16 (n := payload.length + 6) (by omega), num16_bytes16 port.isLt]
    rw [if_neg (by simp), Nat.add_sub_cancel, List.take_left, ← bits71_eq_ofNat, ← bits71_eq_ofNat,
      ← bit0_eq_ofNat, infoByte0_eq_ackByte, bits71_ackByte, bits71_ackByte, bit0_ackByte,
      BitVec.ofNat_toNat, BitVec.setWidth_eq]

theorem toNat_supByte0_mod (res : BitVec 4) (kind : BitVec 2) : (supByte0 res kind).toNat % 4 = 1 := by
  rw [toNat_supByte0]
  omega

theorem supByte0_reserved_iff (res : BitVec 4) (kind : BitVec 2) :
    (supByte0 res kind).toNat / 16 ≠ 0 ↔ res ≠ 0 := by
  revert res kind
  decide

/-- A supervisory packet of a defined kind by its fields. -/
theorem relParse_supByte0 (P : Params) (res : BitVec 4) (kind : SupKind) (b1 : Byte) (rest : Bytes) :
    relParse P (supByte0 res (kindBits kind) :: b1 :: rest) =
      if P.relReservedStrict = true ∧ res ≠ 0 then .error .relPacketMalformed
      else .ok (.sup kind (BitVec.ofNat 7 (b1.toNat / 2)) (BitVec.ofNat 1 b1.toNat)) := by
  rw [relParse_of_sup P (u := supByte0 res (kindBits kind) :: b1 :: rest) (Nat.le_add_left 2 _)
    (toNat_supByte0_mod _ _), relParseSup_cons, bits32_supByte0, kindOf_kindBits]
  simp only [supByte0_reserved_iff]

/-- The kind 11 is refused with or without a byte 1, whatever the reserved bits are (R69). -/
theorem relParse_of_undefined_kind (P : Params) (res : BitVec 4) (rest : Bytes) :
    relParse P (supByte0 res 3 :: rest) = .error .relPacketMalformed := by
  cases rest with
  | nil => exact relParse_singleton P _
  | cons b1 rest =>
    rw [relParse_of_sup P (u := supByte0 res 3 :: b1 :: rest) (Nat.le_add_left 2 _) (toNat_supByte0_mod _ _),
      relParseSup_cons, bits32_supByte0]
    exact ite_self _

theorem relParse_of_relBuildSup (P : Params) (kind : SupKind) (nr : Seq7) (pf : Bit1) (pad : Bytes) :
    relParse P (relBuildSup kind nr pf ++ pad) = .ok (.sup kind nr pf) := by
  rw [relBuildSup, List.cons_append, List.cons_append, relParse_supByte0, if_neg (fun h => h.2 rfl),
    ← bits71_eq_ofNat, ← bit0_eq_ofNat, bits71_ackByte, bit0_ackByte]

/-- Settles O30 (R68, R136, R145): every field is read back from where the builder put it, and the length field
cuts off what follows. -/
theorem parsersReadBackBuiltPackets : Obligations.ParsersReadBackBuiltPackets :=
  ⟨fun _ _ _ pad h => beParse_of_beBuild h pad,
    fun P _ _ _ _ _ _ pad h => relParse_of_relBuildInfo P h pad, relParse_of_relBuildSup⟩

/-! ### The rows of byte 0 (R69, R74; log entry 11) -/

theorem exec_relInfo (ns : Seq7) (rest : Bytes) (s : State) : exec (.relInfo ns rest) s =
    .next (replied (relResult (relParse params (infoByte0 ns :: rest))) s) := rfl

theorem exec_relSupRr (res : BitVec 4) (rest : Bytes) (s : State) : exec (.relSupRr res rest) s =
    .next (replied (relResult (relParse params (supByte0 res (kindBits .rr) :: rest))) s) := rfl

theorem exec_relSupRnr (res : BitVec 4) (rest : Bytes) (s : State) : exec (.relSupRnr res rest) s =
    .next (replied (relResult (relParse params (supByte0 res (kindBits .rnr) :: rest))) s) := rfl

theorem exec_relSupRej (res : BitVec 4) (rest : Bytes) (s : State) : exec (.relSupRej res rest) s =
    .next (replied (relResult (relParse params (supByte0 res (kindBits .rej) :: rest))) s) := rfl

theorem exec_relSupKindUndefined (res : BitVec 4) (rest : Bytes) (s : State) :
    exec (.relSupKindUndefined res rest) s =
      .next (replied (relResult (relParse params (supByte0 res 3 :: rest))) s) := rfl

theorem exec_relUndefined (high : BitVec 6) (rest : Bytes) (s : State) :
    exec (.relUndefined high rest) s =
      .next (replied (relResult (relParse params (undefByte0 high :: rest))) s) := rfl

theorem relResult_relParse_of_kind (res : BitVec 4) (kind : SupKind) (b1 : Byte) (rest : Bytes) :
    relResult (relParse params (supByte0 res (kindBits kind) :: b1 :: rest)) =
      if params.relReservedStrict = true ∧ res ≠ 0 then .err (.cause .relPacketMalformed)
      else .okRel (.sup kind (BitVec.ofNat 7 (b1.toNat / 2)) (BitVec.ofNat 1 b1.toNat)) := by
  rw [relParse_supByte0, apply_ite relResult]
  rfl

theorem toNat_undefByte0_mod (high : BitVec 6) : (undefByte0 high).toNat % 4 = 3 := by
  revert high
  decide

theorem infoByte0_div_two (ns : Seq7) : BitVec.ofNat 7 ((infoByte0 ns).toNat / 2) = ns := by
  rw [← bits71_eq_ofNat, infoByte0_eq_ackByte, bits71_ackByte]

theorem relParse_infoByte0_of_short (P : Params) (ns : Seq7) {rest : Bytes} (h : rest.length < 5) :
    relParse P (infoByte0 ns :: rest) = .error .relPacketMalformed := by
  cases rest with
  | nil => exact relParse_singleton P _
  | cons b1 rest =>
    rw [List.length_cons] at h
    rw [relParse_infoByte0, relParseInfo_of_length_lt (by simp only [List.length_cons]; omega)]

/-- Settles O31 (R69, R145): each row gives `REL_PARSE` a byte 0 of its class, and the class selects the
branch. -/
theorem reliableByte0RowsAnswerLikeRelParse : Obligations.ReliableByte0RowsAnswerLikeRelParse := by
  refine ⟨fun ns b1 p0 p1 l0 l1 rest s => ?info, fun ns rest s h => ?shortInfo,
    fun res b1 rest s => ⟨?rr, ?rnr, ?rej⟩, fun res s => ⟨?rrShort, ?rnrShort, ?rejShort⟩,
    fun res high rest s => ⟨?undefinedKind, ?undefined⟩⟩
  case info =>
    rw [exec_relInfo, relParse_infoByte0, relParseInfo_cons, infoByte0_div_two, apply_ite relResult]
    rfl
  case shortInfo => rw [exec_relInfo, relParse_infoByte0_of_short params ns h]; rfl
  case rr => rw [exec_relSupRr, relResult_relParse_of_kind]
  case rnr => rw [exec_relSupRnr, relResult_relParse_of_kind]
  case rej => rw [exec_relSupRej, relResult_relParse_of_kind]
  case rrShort => rw [exec_relSupRr, relParse_singleton]; rfl
  case rnrShort => rw [exec_relSupRnr, relParse_singleton]; rfl
  case rejShort => rw [exec_relSupRej, relParse_singleton]; rfl
  case undefinedKind => rw [exec_relSupKindUndefined, relParse_of_undefined_kind]; rfl
  case undefined =>
    rw [exec_relUndefined, relParse_of_undefined params (u := undefByte0 high :: rest)
      (toNat_undefByte0_mod high)]
    rfl

/-! ### The six classes of byte 0 (R67, R74) -/

/-- The masks and values of the six rows (R74). -/
def byte0Classes : List (Byte × Byte) :=
  [(0x01, 0x00), (0x0F, 0x01), (0x0F, 0x05), (0x0F, 0x09), (0x0F, 0x0D), (0x03, 0x03)]

theorem byte0Classes_partition (b : Byte) :
    (byte0Classes.filter (fun c => b &&& c.1 == c.2)).length = 1 := by
  revert b
  decide

theorem infoByte0_bits71 {b : Byte} (h : inClass b 0x01 0x00 = true) : infoByte0 (bits71 b) = b := by
  revert b
  decide

theorem supByte0_bits74 {b : Byte} (kind : BitVec 2)
    (h : inClass b 0x0F (supByte0 0 kind) = true) : supByte0 (bits74 b) kind = b := by
  revert b kind
  decide

theorem undefByte0_bits72 {b : Byte} (hinfo : ¬inClass b 0x01 0x00 = true)
    (hrr : ¬inClass b 0x0F 0x01 = true) (hrnr : ¬inClass b 0x0F 0x05 = true)
    (hrej : ¬inClass b 0x0F 0x09 = true) (hkind : ¬inClass b 0x0F 0x0D = true) :
    undefByte0 (bits72 b) = b := by
  revert b
  decide

/-- The row of a byte's class puts the byte back into its record. -/
theorem encode_relByte0Instr_tail (b : Byte) (rest : Bytes) :
    (encode (relByte0Instr b rest)).tail = b :: rest := by
  unfold relByte0Instr
  split_ifs with hinfo hrr hrnr hrej hkind
  · exact congrArg (· :: rest) (infoByte0_bits71 hinfo)
  · exact congrArg (· :: rest) (supByte0_bits74 0 hrr)
  · exact congrArg (· :: rest) (supByte0_bits74 1 hrnr)
  · exact congrArg (· :: rest) (supByte0_bits74 2 hrej)
  · exact congrArg (· :: rest) (supByte0_bits74 3 hkind)
  · exact congrArg (· :: rest) (undefByte0_bits72 hinfo hrr hrnr hrej hkind)

theorem relByte0Instr_wf (b : Byte) (rest : Bytes) : (relByte0Instr b rest).wf = true := by
  unfold relByte0Instr
  split_ifs <;> rfl

theorem relParseInfo_ne_sup (u : Bytes) (k : SupKind) (nr : Seq7) (pf : Bit1) :
    relParseInfo u ≠ .ok (.sup k nr pf) := by
  unfold relParseInfo
  split_ifs <;> simp

/-- `REL_PARSE` answers a supervisory packet by byte 0 alone: bits 1:0, the reserved bits where they count, and
a defined kind (R69, R145). -/
theorem relParse_isSup_iff (P : Params) (b b1 : Byte) (rest : Bytes) :
    (∃ k nr pf, relParse P (b :: b1 :: rest) = .ok (.sup k nr pf)) ↔
      b.toNat % 4 = 1 ∧ ¬(P.relReservedStrict = true ∧ b.toNat / 16 ≠ 0) ∧ kindOf (bits32 b) ≠ none := by
  have hlen : 2 ≤ (b :: b1 :: rest).length := Nat.le_add_left 2 _
  have hclass : b.toNat % 4 = 1 ∨ b.toNat % 4 = 3 ∨ b.toNat % 2 = 0 := by omega
  rcases hclass with hsup | hundef | hinfo
  · rw [relParse_of_sup P hlen hsup, relParseSup_cons]
    by_cases hres : P.relReservedStrict = true ∧ b.toNat / 16 ≠ 0
    · simp [hres]
    · rw [if_neg hres]
      cases hkind : kindOf (bits32 b) with
      | none => simp
      | some k => simp only [hsup, hres]; simp
  · rw [relParse_of_undefined P (u := b :: b1 :: rest) hundef]
    simp [hundef]
  · rw [relParse_of_info P hlen hinfo]
    have hnot : b.toNat % 4 ≠ 1 := by omega
    simp [relParseInfo_ne_sup, hnot]

theorem strict_sup_bytes (b : Byte) :
    (b.toNat % 4 = 1 ∧ b.toNat / 16 = 0 ∧ kindOf (bits32 b) ≠ none) ↔ b ∈ [(0x01 : Byte), 0x05, 0x09] := by
  revert b
  decide

theorem lenient_sup_bytes (b : Byte) :
    (b.toNat % 4 = 1 ∧ kindOf (bits32 b) ≠ none) ↔ b &&& 0x0F ∈ [(0x01 : Byte), 0x05, 0x09] := by
  revert b
  decide

/-- Settles O4 (R67, R69, R74): the classes are checked on all 256 bytes, and `REL_PARSE` reads no more of byte
0 than its class and reserved bits (`relParse_isSup_iff`). -/
theorem reliableByte0ClassesPartition : Obligations.ReliableByte0ClassesPartition := by
  refine ⟨fun b rest => ⟨relByte0Instr_wf b rest, encode_relByte0Instr_tail b rest,
    byte0Classes_partition b⟩, fun P b b1 rest => ?_⟩
  rw [relParse_isSup_iff]
  cases P.relReservedStrict with
  | true => simpa using strict_sup_bytes b
  | false => simpa using lenient_sup_bytes b

end Sys2Proof.Machine
end

section
/-! One step by the turn it takes (R51, R164), and the received stream: a run of bytes, the contents of a frame,
the recovery after noise (R71, R103, R112, R156). -/

namespace Sys2Proof.Machine

/-! ### One step by its turn (R51, R164) -/

section Turns

variable {s : State} {ts : List Turn}

theorem step_of_rxb {b : Byte} {bs : Bytes} (hs : s.sched = .rxb :: ts) (hb : s.rxbIn = b :: bs) :
    step s = exec (.rxByte b) { s with sched := ts, rxbIn := bs } := by
  have hfetch : fetch s = .byte b := by simp [fetch, hs, hb]
  have htake : takeRxb s = { s with sched := ts, rxbIn := bs } := by simp [takeRxb, nextTurn, hs, hb]
  rw [step, hfetch, htake]

theorem fetch_of_cmd {r : Bytes} {rs : List Bytes} (hs : s.sched = .cmd :: ts) (hr : s.cmdIn = r :: rs) :
    fetch s = .command r := by
  simp [fetch, hs, hr]

theorem step_of_cmd {r : Bytes} {rs : List Bytes} {i : Instr} (hs : s.sched = .cmd :: ts)
    (hr : s.cmdIn = r :: rs) (hd : decode r = .ok i) (hi : i.issuable = true) :
    step s = exec i { s with sched := ts, cmdIn := rs } := by
  have htake : takeCmd s = { s with sched := ts, cmdIn := rs } := by simp [takeCmd, nextTurn, hs, hr]
  simp only [step, fetch_of_cmd hs hr, hd, hi, htake, if_true]

theorem step_of_unissuable {r : Bytes} {rs : List Bytes} {i : Instr} (hs : s.sched = .cmd :: ts)
    (hr : s.cmdIn = r :: rs) (hd : decode r = .ok i) (hi : i.issuable = false) :
    step s = .refused .notIssuable := by
  simp only [step, fetch_of_cmd hs hr, hd, hi, Bool.false_eq_true, if_false]

theorem step_of_undecodable {r : Bytes} {rs : List Bytes} {e : DecodeErr} (hs : s.sched = .cmd :: ts)
    (hr : s.cmdIn = r :: rs) (hd : decode r = .error e) : step s = .refused (.undecodable e) := by
  simp only [step, fetch_of_cmd hs hr, hd]

theorem step_of_bench {r : Bytes} {rs : List Bytes} {i : Instr} (hs : s.sched = .bench :: ts)
    (hr : s.benchIn = r :: rs) (hd : decode r = .ok i) :
    step s = exec i { s with sched := ts, benchIn := rs } := by
  have hfetch : fetch s = .bench r := by simp [fetch, hs, hr]
  have htake : takeBench s = { s with sched := ts, benchIn := rs } := by simp [takeBench, nextTurn, hs, hr]
  simp only [step, hfetch, hd, htake]

theorem step_of_idle (h : fetch s = .idle) : step s = .next { s with sched := s.sched.drop 1 } := by
  rw [step, h]
  rfl

end Turns

theorem decode_of_decodeTableWord {nbits w : Nat} {i : Instr} (h : decodeTableWord nbits w = some i) :
    ∃ r, tableRecord nbits w = some r ∧ decode r = .ok i := by
  unfold decodeTableWord at h
  cases hr : tableRecord nbits w with
  | none => rw [hr] at h; cases h
  | some r =>
    rw [hr] at h
    refine ⟨r, rfl, ?_⟩
    cases hd : decode r with
    | error e => simp [hd] at h; cases h
    | ok j => simp [hd] at h; cases h; rfl

/-- Settles O5 (R51): the turn and its lane select the event, and taking it leaves the rest of the state. -/
theorem stepRunsTheDecodedInstruction : Obligations.StepRunsTheDecodedInstruction := by
  refine ⟨fun s b bs ts hs hb => step_of_rxb hs hb, fun s r rs ts i hs hr hd hi => step_of_cmd hs hr hd hi,
    fun s r rs ts i hs hr hd => step_of_bench hs hr hd,
    fun s r rs ts i hs hr hd hi => step_of_unissuable hs hr hd hi,
    fun s r rs ts e hs hr hd => step_of_undecodable hs hr hd, fun s nbits w i h => ?tableWord⟩
  case tableWord =>
    obtain ⟨r, hr, hd⟩ := decode_of_decodeTableWord h
    have hbench : (s.withFetchWord nbits w).benchIn = r :: s.benchIn := by
      simp [State.withFetchWord, hr]
    exact step_of_bench rfl hbench hd

/-- Settles O6 (R164): without a turn, or with a turn whose lane is empty, nothing is fetched. -/
theorem idleStepChangesNothing : Obligations.IdleStepChangesNothing := by
  refine ⟨fun s hs => ?noTurn, fun s ts hs hempty => ?rxb, fun s ts hs hempty => ?cmd,
    fun s ts hs hempty => ?bench⟩
  case noTurn =>
    have hfetch : fetch s = .idle := by simp [fetch, hs]
    rw [step_of_idle hfetch, hs, List.drop_nil, ← hs]
  all_goals
    have hfetch : fetch s = .idle := by simp [fetch, hs, hempty]
    rw [step_of_idle hfetch, hs]
    rfl

/-! ### The seven cases are the rows of the table (R71) -/

/-- Settles O32 (R71): the interface, the mode, the byte and the buffer are split as the table does, and each
situation has its case. -/
theorem receivedByteSelectsOneCase : Obligations.ReceivedByteSelectsOneCase := by
  intro b s hinv
  have hlen : s.buf.length ≤ params.maxFrameLen := hinv.1
  cases ho : s.ifOpen with
  | false => simp [rxCase_eq_ignored params b ho]
  | true =>
    cases hm : s.mode with
    | waitSync =>
      rcases eq_or_ne b 0x55 with rfl | hb
      · rw [rxCase_eq_syncFlag params ho hm]
        simp
      · have hne : b ≠ 85#8 := hb
        simp [rxCase_eq_syncSkip params ho hm hb, hne]
    | collect =>
      rcases eq_or_ne b 0x55 with rfl | hb
      · rcases eq_or_ne s.buf [] with hbuf | hbuf
        · rw [rxCase_eq_flagEmpty params ho hm hbuf]
          simp [hbuf]
        · rw [rxCase_eq_flagFrame params ho hm hbuf]
          simp [hbuf]
      · have hne : b ≠ 85#8 := hb
        rcases hlen.lt_or_eq with hroom | hfull
        · simp [rxCase_eq_collectData params ho hm hb hroom, hne, hroom, hroom.ne]
        · simp [rxCase_eq_collectOverflow params ho hm hb hfull, hne, hfull]

/-! ### Runs of bytes (R112) -/

theorem rxRun_append (P : Params) (a b : Bytes) (s : State) :
    rxRun P (a ++ b) s = rxRun P b (rxRun P a s) := List.foldl_append

theorem rxRun_cons (P : Params) (b : Byte) (bs : Bytes) (s : State) :
    rxRun P (b :: bs) s = rxRun P bs (rxByteOp P b s) := rfl

theorem rxRun_nil (P : Params) (s : State) : rxRun P [] s = s := rfl

/-- What every byte keeps of an open interface, a run of bytes keeps. -/
theorem rxRun_keeps {P : Params} {I : State → Prop} (hstep : ∀ b s, I s → I (rxByteOp P b s)) (bs : Bytes)
    {s : State} (h : I s) : I (rxRun P bs s) := by
  induction bs generalizing s with
  | nil => exact h
  | cons b bs ih => exact ih (hstep b s h)

/-! ### What waits on the lanes plays no part in a byte -/

/-- The state with other bytes waiting and another schedule. -/
def relane (x : Bytes) (y : List Turn) (s : State) : State := { s with rxbIn := x, sched := y }

section Lanes

variable (P : Params) (x : Bytes) (y : List Turn) (s : State)

theorem capture_relane (dir : Byte) (dg : Bytes) :
    capture dir dg (relane x y s) = relane x y (capture dir dg s) := by
  rw [capture_eq, capture_eq]
  rfl

theorem enqueueOp_relane (sid : SockId) (payload : Bytes) :
    enqueueOp P sid payload (relane x y s) = relane x y (enqueueOp P sid payload s) := by
  have hlen : queueLen sid (relane x y s) = queueLen sid s := rfl
  rw [enqueueOp, enqueueOp, hlen]
  cases queueIsFull P (queueLen sid s) <;> rfl

theorem portDeliverOp_relane (sp : PortSpace) (port : U16) (payload : Bytes) :
    portDeliverOp P sp port payload (relane x y s) = relane x y (portDeliverOp P sp port payload s) := by
  have hentry : portEntry sp port (relane x y s) = portEntry sp port s := rfl
  rw [portDeliverOp, portDeliverOp, hentry]
  cases portEntry sp port s with
  | none => rfl
  | some sid => exact enqueueOp_relane P x y s sid payload

theorem dispatchOp_relane (n : U16) (payload : Bytes) :
    dispatchOp P n payload (relane x y s) = relane x y (dispatchOp P n payload s) := by
  have hproto : (relane x y s).proto = s.proto := rfl
  rw [dispatchOp, dispatchOp, hproto]
  rcases Store.find n.toNat s.proto with _ | sid | _
  · rfl
  · exact enqueueOp_relane P x y s sid payload
  · dsimp only
    rw [beDemuxOp, beDemuxOp]
    cases beParse payload with
    | error e => rfl
    | ok v => exact portDeliverOp_relane P x y s .beport v.1 v.2

theorem rxFrameOp_relane (f : Bytes) : rxFrameOp P f (relane x y s) = relane x y (rxFrameOp P f s) := by
  rw [rxFrameOp, rxFrameOp]
  cases decodeFrame f with
  | error e => rfl
  | ok dg =>
    dsimp only
    rw [capture_relane]
    cases unencap dg with
    | error e => rfl
    | ok v => exact dispatchOp_relane P x y _ v.1 v.2

theorem rxByteOp_relane (b : Byte) : rxByteOp P b (relane x y s) = relane x y (rxByteOp P b s) := by
  have hcase : rxCase P b (relane x y s) = rxCase P b s := rfl
  rw [rxByteOp_eq_caseEffect, rxByteOp_eq_caseEffect, hcase]
  cases rxCase P b s
  case flagFrame => exact rxFrameOp_relane P x y { s with buf := [] } s.buf
  all_goals rfl

end Lanes

/-! ### Chunks (R112; log entry 13) -/

theorem run_succ (M : Host.Core) {n : Nat} {s t : M.State} (h : M.step s = .next t) :
    M.run (n + 1) s = M.run n t := by
  rw [Host.Core.run, h]

theorem core_run_succ {n : Nat} {s t : State} (h : step s = .next t) :
    Host.Core.run core (n + 1) s = Host.Core.run core n t := run_succ core (s := s) (t := t) h

/-- As many turns of the receive agent as there are bytes in front take exactly those. -/
theorem run_core_rxb_turns (bs rest : Bytes) (ts : List Turn) (s : State) :
    Host.Core.run core bs.length (relane (bs ++ rest) (List.replicate bs.length .rxb ++ ts) s) =
      .next (relane rest ts (rxRun params bs s)) := by
  induction bs generalizing s with
  | nil => rfl
  | cons b bs ih =>
    have hturn : (relane (b :: bs ++ rest) (List.replicate (b :: bs).length .rxb ++ ts) s).sched =
        .rxb :: (List.replicate bs.length .rxb ++ ts) := rfl
    have hstep : step (relane (b :: bs ++ rest) (List.replicate (b :: bs).length .rxb ++ ts) s) =
        .next (relane (bs ++ rest) (List.replicate bs.length .rxb ++ ts) (rxByteOp params b s)) := by
      rw [step_of_rxb hturn rfl, exec_rxByte, ← rxByteOp_relane]
      rfl
    exact (core_run_succ hstep).trans (ih (rxByteOp params b s))

theorem exec_rxChunk (bs : Bytes) (s : State) : exec (.rxChunk bs) s =
    .next (relane (s.rxbIn ++ bs) (s.sched ++ List.replicate bs.length .rxb) s) := rfl

/-- Settles O36 (R112): a chunk is offered with its turns, the turns take the bytes (`run_core_rxb_turns`), and
a run of bytes is a fold. -/
theorem chunksAreSuccessiveBytes : Obligations.ChunksAreSuccessiveBytes := by
  refine ⟨exec_rxChunk, fun bs s hrx hsched => ⟨_, exec_rxChunk bs s, ?alone⟩, run_core_rxb_turns, rxRun_append⟩
  case alone =>
    have hrun := run_core_rxb_turns bs [] [] s
    have hlanes : relane [] [] (rxRun params bs s) = rxRun params bs s := by
      have hkept : (rxRun params bs s).rxbIn = [] ∧ (rxRun params bs s).sched = [] :=
        rxRun_keeps (I := fun t => t.rxbIn = [] ∧ t.sched = []) (fun b t ht => by
          obtain ⟨m, u, d, k, c, h⟩ := rxByteOp_frame t params b
          rwa [h]) bs ⟨hrx, hsched⟩
      obtain ⟨hrx', hsched'⟩ := hkept
      rw [relane, ← hrx', ← hsched']
    have hoffered : relane (s.rxbIn ++ bs) (s.sched ++ List.replicate bs.length .rxb) s =
        relane (bs ++ []) (List.replicate bs.length .rxb ++ []) s := by
      rw [hrx, hsched, List.nil_append, List.nil_append, List.append_nil, List.append_nil]
    exact (congrArg (Host.Core.run core bs.length) hoffered).trans
      (hrun.trans (congrArg Host.Outcome.next hlanes))

/-! ### A wire frame on the stream (R103 (b)) -/

theorem rxByteOp_of_case {P : Params} {b : Byte} {s : State} {c : RxCase} (h : rxCase P b s = c) :
    rxByteOp P b s = caseEffect P c b s := by
  rw [rxByteOp_eq_caseEffect, h]

/-- The state in which the splitter is collecting and has collected `c`. -/
def collecting (c : Bytes) (s : State) : State := { s with mode := .collect, buf := c }

theorem collecting_nil {s : State} (hbuf : s.buf = []) : collecting [] s = { s with mode := .collect } := by
  rw [collecting, ← hbuf]

theorem collecting_eq_self {s : State} (hm : s.mode = .collect) : collecting s.buf s = s := by
  rw [collecting, ← hm]

/-- A `FLAG` on an empty buffer leaves the splitter collecting, whatever its mode was. -/
theorem rxByteOp_flag_of_empty (P : Params) {s : State} (ho : s.ifOpen = true) (hbuf : s.buf = []) :
    rxByteOp P 0x55 s = collecting [] s := by
  rw [collecting_nil hbuf]
  cases hm : s.mode with
  | waitSync => exact rxByteOp_of_case (rxCase_eq_syncFlag P ho hm)
  | collect =>
    rw [rxByteOp_of_case (rxCase_eq_flagEmpty P ho hm hbuf), ← hm]
    rfl

theorem rxByteOp_flag_of_frame (P : Params) {c : Bytes} {s : State} (ho : s.ifOpen = true) (hc : c ≠ []) :
    rxByteOp P 0x55 (collecting c s) = rxFrameOp P c (collecting [] s) :=
  rxByteOp_of_case (rxCase_eq_flagFrame P (s := collecting c s) ho rfl hc)

theorem rxByteOp_collecting (P : Params) {b : Byte} {c : Bytes} {s : State} (ho : s.ifOpen = true)
    (hb : b ≠ 0x55) (hroom : c.length < P.maxFrameLen) :
    rxByteOp P b (collecting c s) = collecting (c ++ [b]) s :=
  rxByteOp_of_case (rxCase_eq_collectData P (s := collecting c s) ho rfl hb hroom)

/-- Bytes that are no `FLAG` and fit are collected in order. -/
theorem rxRun_collecting (P : Params) {d : Bytes} (c : Bytes) {s : State} (ho : s.ifOpen = true)
    (hflag : (0x55 : Byte) ∉ d) (hfits : c.length + d.length ≤ P.maxFrameLen) :
    rxRun P d (collecting c s) = collecting (c ++ d) s := by
  induction d generalizing c with
  | nil => rw [rxRun_nil, List.append_nil]
  | cons b d ih =>
    obtain ⟨hb, hflag⟩ := not_or.1 (mt List.mem_cons.2 hflag)
    rw [List.length_cons] at hfits
    have hlen : (c ++ [b]).length + d.length ≤ P.maxFrameLen := by
      rw [List.length_append, List.length_singleton]
      omega
    rw [rxRun_cons, rxByteOp_collecting P ho (Ne.symm hb) (by omega), ih _ hflag hlen, List.append_assoc]
    rfl

/-- The first `FLAG` of a frame opens it, its contents are collected, the last `FLAG` completes it. -/
theorem rxRun_encodeFrame (P : Params) (p : Bytes) {s : State} (ho : s.ifOpen = true) (hbuf : s.buf = [])
    (hfits : (encodeFrame p).length - 2 ≤ P.maxFrameLen) :
    rxRun P (encodeFrame p) s = rxFrameOp P (contents (encodeFrame p)) { s with mode := .collect } := by
  rw [length_encodeFrame_sub_two] at hfits
  have hcollected := rxRun_collecting P [] (s := s) ho (flag_not_mem_contents p)
    (by rwa [List.length_nil, Nat.zero_add])
  calc rxRun P (encodeFrame p) s
      = rxRun P ([0x55] ++ contents (encodeFrame p) ++ [0x55]) s := by rw [← encodeFrame_eq_contents]
    _ = rxByteOp P 0x55 (rxRun P (contents (encodeFrame p)) (rxByteOp P 0x55 s)) := by
        rw [rxRun_append, rxRun_append]
        rfl
    _ = rxByteOp P 0x55 (collecting (contents (encodeFrame p)) s) := by
        rw [rxByteOp_flag_of_empty P ho hbuf, hcollected, List.nil_append]
    _ = rxFrameOp P (contents (encodeFrame p)) { s with mode := .collect } := by
        rw [rxByteOp_flag_of_frame P ho (contents_ne_nil p), collecting_nil hbuf]

/-- Settles O24 (R103 (b)): the run is one `RX_FRAME` of the contents, and the contents decode. -/
theorem frameRoundTripsThroughTheStream : Obligations.FrameRoundTripsThroughTheStream :=
  fun P p _ ho hbuf hfits => ⟨rxRun_encodeFrame P p ho hbuf hfits, decodeFrame_contents p⟩

/-! ### End to end -/

theorem rxFrameOp_of_unencap (P : Params) {f dg payload : Bytes} {n : U16} (s : State)
    (hdg : decodeFrame f = .ok dg) (hn : unencap dg = .ok (n, payload)) :
    rxFrameOp P f s = dispatchOp P n payload (captured 0x00 dg s) := by
  simp only [rxFrameOp, hdg, hn, capture_eq_captured]
  rfl

theorem enqueueOp_of_unbounded {P : Params} (h : P.queueDepth = none) (sid : SockId) (payload : Bytes)
    (s : State) : enqueueOp P sid payload s = delivered sid payload s := by
  have hroom : queueIsFull P (queueLen sid s) = false := by rw [queueIsFull, h]
  rw [enqueueOp, hroom]
  rfl

/-- Settles O25 (R55, R103, R111, R122): the frame is received whole, its header is taken off, and the number's
entry names the socket. -/
theorem sentFrameDeliversItsPayload : Obligations.SentFrameDeliversItsPayload := by
  intro P n payload sid s ho hbuf hdepth hfits hentry
  have hraw := dispatchOp_of_raw P payload
    (s := captured 0x00 (encap n payload) { s with mode := .collect }) hentry
  rw [rxRun_encodeFrame P _ ho hbuf hfits,
    rxFrameOp_of_unencap P _ (decodeFrame_contents _) (unencap_encap n payload), hraw,
    enqueueOp_of_unbounded hdepth, encap_eq_bytes16_append]

/-! ### Recovery (R156) -/

/-- What a byte on an open interface keeps: the interface is open and the buffer meets item 1 of R32. -/
def Receiving (P : Params) (s : State) : Prop := s.ifOpen = true ∧ BufInv P s

theorem receiving_of_empty {P : Params} {s : State} (ho : s.ifOpen = true) (hbuf : s.buf = []) :
    Receiving P s :=
  ⟨ho, by simp [hbuf], by simp [hbuf], fun _ => hbuf⟩

theorem rxFrameOp_ifOpen (P : Params) (f : Bytes) (s : State) : (rxFrameOp P f s).ifOpen = s.ifOpen := by
  obtain ⟨d, k, c, h⟩ := rxFrameOp_frame s P f
  rw [h]

/-- A `FLAG` leaves the splitter collecting with an empty buffer (R106, R109, R110). -/
theorem rxByteOp_flag {P : Params} {s : State} (h : Receiving P s) :
    (rxByteOp P 0x55 s).ifOpen = true ∧ (rxByteOp P 0x55 s).mode = .collect ∧ (rxByteOp P 0x55 s).buf = [] := by
  obtain ⟨ho, -, -, hwait⟩ := h
  rcases eq_or_ne s.buf [] with hbuf | hbuf
  · rw [rxByteOp_flag_of_empty P ho hbuf]
    exact ⟨ho, rfl, rfl⟩
  · have hm : s.mode = .collect := by
      cases hm : s.mode with
      | collect => rfl
      | waitSync => exact absurd (hwait hm) hbuf
    have hframe := rxByteOp_flag_of_frame P ho hbuf
    rw [collecting_eq_self hm] at hframe
    rw [hframe, rxFrameOp_ifOpen, rxFrameOp_mode, rxFrameOp_buf]
    exact ⟨ho, rfl, rfl⟩

theorem rxByteOp_keeps_receiving (P : Params) (b : Byte) (s : State) (h : Receiving P s) :
    Receiving P (rxByteOp P b s) := by
  rcases eq_or_ne b 0x55 with rfl | hb
  · obtain ⟨ho, -, hbuf⟩ := rxByteOp_flag h
    exact receiving_of_empty ho hbuf
  · obtain ⟨ho, hlen, hfree, hwait⟩ := h
    cases hm : s.mode with
    | waitSync =>
      rw [rxByteOp_of_case (rxCase_eq_syncSkip P ho hm hb)]
      exact receiving_of_empty ho (hwait hm)
    | collect =>
      rcases hlen.lt_or_eq with hroom | hfull
      · rw [rxByteOp_of_case (rxCase_eq_collectData P ho hm hb hroom)]
        refine ⟨ho, ?_, ?_, fun hsync => ?_⟩
        · simpa [caseEffect, collectDataCase] using hroom
        · have hflag : b ≠ flag := hb
          simpa [caseEffect, collectDataCase, hfree] using hflag.symm
        · cases hm.symm.trans hsync
      · rw [rxByteOp_of_case (rxCase_eq_collectOverflow P ho hm hb hfull)]
        exact receiving_of_empty ho rfl

/-- Settles O37 (R156, R110, R106): the noise keeps item 1 of R32, so the next `FLAG` empties the buffer, and the
frame is received from there. -/
theorem frameAfterTheNextFlagIsReceived : Obligations.FrameAfterTheNextFlagIsReceived := by
  intro P noise s ho hinv
  have hnoise : Receiving P (rxRun P noise s) :=
    rxRun_keeps (rxByteOp_keeps_receiving P) noise ⟨ho, hinv⟩
  have hflag := rxByteOp_flag hnoise
  have hrun : rxRun P (noise ++ [0x55]) s = rxByteOp P 0x55 (rxRun P noise s) := rxRun_append P noise [0x55] s
  rw [← hrun] at hflag
  obtain ⟨ho', hm', hbuf'⟩ := hflag
  refine ⟨hm', hbuf', fun p hfits => ⟨?_, decodeFrame_contents p⟩⟩
  have hcollecting : { rxRun P (noise ++ [0x55]) s with mode := .collect } = rxRun P (noise ++ [0x55]) s := by
    rw [← hm']
  rw [← List.singleton_append, ← List.append_assoc, rxRun_append, rxRun_encodeFrame P p ho' hbuf' hfits,
    hcollecting]

end Sys2Proof.Machine
end

section
/-! What an instruction can do to the state, said once for all of them: sixteen effects (`Effect`) and the answer
after them (`exec_effect`). What every step keeps is then shown effect by effect. -/

namespace Sys2Proof.Machine

/-! ### Effects -/

/-- The state in which the receive chain ends its work on a frame: the buffer is as it was or emptied, and
`CAP` may have more records. -/
def Took (s u : State) : Prop :=
  ∃ b c, u = { s with buf := b, cap := c } ∧ (b = s.buf ∨ b = []) ∧ s.cap <+: c

/-- A registry entry or the store says that the id is an open socket's. -/
def Reachable (sid : SockId) (s : State) : Prop :=
  (∃ sp key, entryIs sp key sid s) ∨ ∃ k, Store.find sid s.sock = some k ∧ k.closed = false

/-- What an instruction other than `RESET` can do, but for its answer. -/
inductive Effect (s : State) : State → Prop where
  | stay : Effect s s
  | sync (ho : s.ifOpen = true) : Effect s { s with mode := .collect }
  | collect (b : Byte) (ho : s.ifOpen = true) (hm : s.mode = .collect) (hb : b ≠ flag)
      (hroom : s.buf.length < params.maxFrameLen) : Effect s (bufAppend b s)
  | overflow : Effect s (collectOverflowCase s)
  | report {u : State} (c : Cause) (info : Option Nat) (hu : Took s u) : Effect s (raise c info u)
  | deliver {u : State} (sid : SockId) (payload : Bytes) (hu : Took s u) (hsid : Reachable sid s) :
      Effect s (pushQueue sid payload u)
  | bind (sp : Space) (key : U16) (ho : s.ifOpen = true) (ha : sp = .beport → attached s = true)
      (hb : bound sp key s = false) : Effect s (bindNew sp key s)
  | close (sid : SockId) : Effect s (closeSock sid s)
  | transmit (n : U16) (dg : Bytes) : Effect s (txDatagramOp n dg s)
  | receive {k : Socket} (sid : SockId) (rest : List Bytes) (hk : Store.find sid s.sock = some k)
      (hc : k.closed = false) : Effect s (popQueue sid rest s)
  | shut (ho : s.ifOpen = true) : Effect s (shutDown s)
  | configure (v : U16) (en : Bool) : Effect s { s with linkMtu := v, capEn := en }
  | attach (x : Bool) (ho : s.ifOpen = true) (hfree : Store.find protoBeDataNum.toNat s.proto = none) :
      Effect s { s with proto := Store.set protoBeDataNum.toNat .beSwitch s.proto, beSimplex := x }
  | detach (ha : attached s = true) : Effect s (detach s)
  | offer (bytes : Bytes) (turns : List Turn) : Effect s (relane bytes turns s)

/-- The answer after an effect: none, one on `CMD` or one on `RCV`. -/
def Answered (u t : State) : Prop := t = u ∨ (∃ r, t = answer r u) ∨ ∃ r, t = answerRcv r u

/-! ### The receive chain -/

theorem Took.refl (s : State) : Took s s := ⟨s.buf, s.cap, rfl, Or.inl rfl, ⟨[], List.append_nil _⟩⟩

theorem Took.emptied (s : State) : Took s { s with buf := [] } := ⟨[], s.cap, rfl, Or.inr rfl, ⟨[], List.append_nil _⟩⟩

theorem Took.capture {s u : State} (hu : Took s u) (dir : Byte) (dg : Bytes) : Took s (capture dir dg u) := by
  obtain ⟨b, c, rfl, hb, hc⟩ := hu
  rw [capture_eq]
  refine ⟨b, _, rfl, hb, hc.trans ?_⟩
  split
  · exact ⟨_, rfl⟩
  · exact ⟨[], List.append_nil _⟩

theorem Took.proto_eq {s u : State} (hu : Took s u) : u.proto = s.proto := by
  obtain ⟨b, c, rfl, -, -⟩ := hu
  rfl

theorem Took.portEntry_eq {s u : State} (hu : Took s u) (sp : PortSpace) (port : U16) :
    portEntry sp port u = portEntry sp port s := by
  obtain ⟨b, c, rfl, -, -⟩ := hu
  rfl

theorem entryIs_of_portEntry {sp : PortSpace} {port : U16} {sid : SockId} {s : State}
    (h : portEntry sp port s = some sid) : entryIs (spaceOf sp) port sid s := by
  cases sp <;> exact h

section ReceiveChain

variable {s u : State}

theorem portDeliverOp_effect (sp : PortSpace) (port : U16) (payload : Bytes) (hu : Took s u) :
    Effect s (portDeliverOp params sp port payload u) := by
  rcases portDeliverOp_cases u params sp port payload with ⟨-, h⟩ | ⟨sid, hentry, h⟩ <;> rw [h]
  · exact .report _ _ hu
  · rw [hu.portEntry_eq] at hentry
    exact .deliver sid payload hu (Or.inl ⟨_, _, entryIs_of_portEntry hentry⟩)

theorem beDemuxOp_effect (payload : Bytes) (hu : Took s u) : Effect s (beDemuxOp params payload u) := by
  rcases beDemuxOp_cases u params payload with ⟨-, h⟩ | ⟨port, p, -, h⟩ <;> rw [h]
  · exact .report _ _ hu
  · exact portDeliverOp_effect .beport port p hu

theorem dispatchOp_effect (n : U16) (payload : Bytes) (hu : Took s u) :
    Effect s (dispatchOp params n payload u) := by
  rcases dispatchOp_cases u params n payload with ⟨-, h⟩ | ⟨sid, hentry, h⟩ | ⟨-, h⟩ <;> rw [h]
  · exact .report _ _ hu
  · rw [hu.proto_eq] at hentry
    exact .deliver sid payload hu (Or.inl ⟨.proto, n, hentry⟩)
  · exact beDemuxOp_effect payload hu

theorem rxFrameOp_effect (f : Bytes) (hu : Took s u) : Effect s (rxFrameOp params f u) := by
  rcases rxFrameOp_cases u params f with ⟨e, -, h⟩ | ⟨dg, e, -, -, h⟩ | ⟨dg, n, p, -, -, h⟩ <;> rw [h]
  · exact .report _ _ hu
  · exact .report _ _ (hu.capture _ _)
  · exact dispatchOp_effect n p (hu.capture _ _)

end ReceiveChain

/-- Each case of `RX_BYTE` with what its selection says of the state (R71). -/
theorem rxByteOp_effect (b : Byte) (s : State) : Effect s (rxByteOp params b s) := by
  cases ho : s.ifOpen with
  | false => rw [rxByteOp_of_case (rxCase_eq_ignored params b ho)]; exact .stay
  | true =>
    cases hm : s.mode with
    | waitSync =>
      rcases eq_or_ne b 0x55 with rfl | hb
      · rw [rxByteOp_of_case (rxCase_eq_syncFlag params ho hm)]; exact .sync ho
      · rw [rxByteOp_of_case (rxCase_eq_syncSkip params ho hm hb)]; exact .stay
    | collect =>
      rcases eq_or_ne b 0x55 with rfl | hb
      · rcases eq_or_ne s.buf [] with hbuf | hbuf
        · rw [rxByteOp_of_case (rxCase_eq_flagEmpty params ho hm hbuf)]; exact .stay
        · rw [rxByteOp_of_case (rxCase_eq_flagFrame params ho hm hbuf)]
          exact rxFrameOp_effect s.buf (Took.emptied s)
      · by_cases hroom : s.buf.length < params.maxFrameLen
        · rw [rxByteOp_of_case (rxCase_eq_collectData params ho hm hb hroom)]
          exact .collect b ho hm hb hroom
        · have hflag : b ≠ flag := hb
          have hcase : rxCase params b s = .collectOverflow := by simp [rxCase, ho, hm, hflag, hroom]
          rw [rxByteOp_of_case hcase]
          exact .overflow

/-! ### The commands -/

section Commands

variable (s : State)

theorem bindOp_effect (sp : Space) (key : U16) : Effect s (bindOp sp key s).1 := by
  rcases bindOp_cases s sp key with ⟨e, h⟩ | ⟨ho, ha, hb, h⟩ <;> rw [h]
  · exact .stay
  · exact .bind sp key ho ha hb

theorem closeOp_effect (sid : SockId) : Effect s (closeOp sid s).1 := by
  rcases closeOp_cases s sid with ⟨-, h⟩ | ⟨-, h⟩ <;> rw [h]
  · exact .stay
  · exact .close sid

theorem sendOp_effect (sid : SockId) (payload : Bytes) : Effect s (sendOp sid payload s).1 := by
  rcases sendOp_cases s sid payload with ⟨e, h⟩ | ⟨n, dg, h⟩ <;> rw [h]
  · exact .stay
  · exact .transmit n dg

theorem recvOp_effect (sid : SockId) : Effect s (recvOp sid s).1 := by
  rcases recvOp_cases s sid with ⟨e, h⟩ | ⟨k, p, rest, hk, hc, -, h⟩ <;> rw [h]
  · exact .stay
  · exact .receive sid rest hk hc

theorem ifCloseOp_effect : Effect s (ifCloseOp s) := by
  cases ho : s.ifOpen with
  | false => rw [ifCloseOp_of_closed ho]; exact .stay
  | true => rw [ifCloseOp_of_open ho]; exact .shut ho

theorem tpAttachOp_effect (x : Bool) : Effect s (tpAttachOp x s).1 := by
  rcases tpAttachOp_cases s x with ⟨e, h⟩ | ⟨ho, hfree, h⟩ <;> rw [h]
  · exact .stay
  · exact .attach x ho hfree

theorem tpDetachOp_effect : Effect s (tpDetachOp s).1 := by
  rcases tpDetachOp_cases s with ⟨-, h⟩ | ⟨ha, h⟩ <;> rw [h]
  · exact .stay
  · exact .detach ha

theorem portForceCloseOp_effect (sp : PortSpace) (port : U16) : Effect s (portForceCloseOp sp port s) := by
  rcases portForceCloseOp_cases s sp port with ⟨-, h⟩ | ⟨sid, -, h⟩ <;> rw [h]
  · exact .stay
  · exact .close sid

end Commands

theorem openSocket_eq_some {sid : SockId} {k : Socket} {s : State} (h : openSocket sid s = some k) :
    Store.find sid s.sock = some k ∧ k.closed = false := by
  unfold openSocket at h
  cases hk : Store.find sid s.sock with
  | none => simp [hk] at h
  | some k' =>
    cases hc : k'.closed with
    | true => simp [hk, hc] at h
    | false =>
      simp only [hk, hc] at h
      cases h
      exact ⟨rfl, hc⟩

theorem execEnqueue_effect {sid : SockId} {payload : Bytes} {s t : State}
    (h : execEnqueue sid payload s = .next t) : Effect s t := by
  rcases execEnqueue_cases s sid payload with ⟨-, e⟩ | ⟨k, hk, e⟩ <;> rw [e] at h <;> cases h
  exact .deliver sid payload (Took.refl s) (Or.inr ⟨k, openSocket_eq_some hk⟩)

/-- A row of a case of `RX_BYTE` answers what `RX_BYTE` answers, so it has one of its effects. -/
theorem rxRow_effect {c : RxCase} {b : Byte} {s t : State}
    (h : rxRow c b (caseEffect params c b s) s = .next t) : Effect s t := by
  rw [rxRow_eq_exec_rxByte, exec_rxByte] at h
  cases h
  exact rxByteOp_effect b s

/-! ### Every instruction -/

/-- An instruction has one of the effects or is `RESET`, and then answers or not. -/
theorem exec_effect {i : Instr} {s t : State} (h : exec i s = .next t) :
    ∃ u, (Effect s u ∨ i = .reset ∧ u = resetOp params s) ∧ Answered u t := by
  have silent {t : State} (ht : Effect s t) :
      ∃ u, (Effect s u ∨ i = .reset ∧ u = resetOp params s) ∧ Answered u t := ⟨t, Or.inl ht, Or.inl rfl⟩
  have replies {u : State} {r : Result} (hu : Effect s u) :
      ∃ v, (Effect s v ∨ i = .reset ∧ v = resetOp params s) ∧ Answered v (answer r u) :=
    ⟨u, Or.inl hu, Or.inr (Or.inl ⟨r, rfl⟩)⟩
  cases i
  case rxByte b => cases h; exact silent (rxByteOp_effect b s)
  case rxIgnored b => exact silent (rxRow_effect (c := .ignored) (b := b) h)
  case syncFlag => exact silent (rxRow_effect (c := .syncFlag) (b := flag) h)
  case syncSkip b => exact silent (rxRow_effect (c := .syncSkip) (b := b) h)
  case flagEmpty => exact silent (rxRow_effect (c := .flagEmpty) (b := flag) h)
  case flagFrame => exact silent (rxRow_effect (c := .flagFrame) (b := flag) h)
  case collectData b => exact silent (rxRow_effect (c := .collectData) (b := b) h)
  case collectOverflow b => exact silent (rxRow_effect (c := .collectOverflow) (b := b) h)
  case rxFrame f => cases h; exact silent (rxFrameOp_effect f (Took.refl s))
  case rxChunk bs => cases h; exact silent (.offer _ _)
  case enqueue sid payload => exact silent (execEnqueue_effect h)
  case txDatagram n payload => cases h; exact silent (.transmit n payload)
  case beDemux u => cases h; exact silent (beDemuxOp_effect u (Took.refl s))
  case dispatch n payload => cases h; exact silent (dispatchOp_effect n payload (Took.refl s))
  case protoLcp payload | protoBeNcp payload | protoBeData payload | protoRelNcp payload |
      protoRelCmd payload | protoRelRsp payload =>
    cases h; exact silent (dispatchOp_effect _ payload (Took.refl s))
  case portDeliver sp port payload => cases h; exact silent (portDeliverOp_effect sp port payload (Took.refl s))
  case pcmpPort sp payload => cases h; exact silent (portDeliverOp_effect sp _ payload (Took.refl s))
  case relDeliver port payload => cases h; exact replies (portDeliverOp_effect .relport port payload (Took.refl s))
  case send sid payload | beSend sid payload | relSend sid payload => cases h; exact replies (sendOp_effect s sid payload)
  case bind sp key => cases h; exact replies (bindOp_effect s sp key)
  case close sid => cases h; exact replies (closeOp_effect s sid)
  case recv sid => cases h; exact ⟨_, Or.inl (recvOp_effect s sid), Or.inr (Or.inr ⟨_, rfl⟩)⟩
  case ifClose => cases h; exact replies (ifCloseOp_effect s)
  case setMtu v => cases h; exact replies (.configure v s.capEn)
  case setCap en => cases h; exact replies (.configure s.linkMtu en)
  case tpAttach x => cases h; exact replies (tpAttachOp_effect s x)
  case tpDetach => cases h; exact replies (tpDetachOp_effect s)
  case portForceClose sp port => cases h; exact replies (portForceCloseOp_effect s sp port)
  case reset => cases h; exact ⟨_, Or.inr ⟨rfl, rfl⟩, Or.inr (Or.inl ⟨_, rfl⟩)⟩
  -- The pure functions and the classes of packet and code bytes: an answer and nothing else.
  all_goals cases h; exact replies .stay

/-- The state with other inputs waiting on the three lanes. -/
def Relaned (s u : State) : Prop :=
  ∃ x y c b, u = { s with rxbIn := x, sched := y, cmdIn := c, benchIn := b }

/-- A step takes its event off the lanes; what follows is an effect or `RESET`, and an answer or none. -/
theorem step_effect {s t : State} (h : step s = .next t) :
    ∃ s' u, Relaned s s' ∧ (Effect s' u ∨ u = resetOp params s') ∧ Answered u t := by
  have executed {i : Instr} {s' : State} (hs' : Relaned s s') (hexec : exec i s' = .next t) :
      ∃ s' u, Relaned s s' ∧ (Effect s' u ∨ u = resetOp params s') ∧ Answered u t := by
    obtain ⟨u, hu, ht⟩ := exec_effect hexec
    exact ⟨s', u, hs', hu.imp_right And.right, ht⟩
  rcases step_cases h with ⟨-, rfl⟩ | ⟨b, -, rfl⟩ | ⟨r, i, -, -, -, hexec⟩ | ⟨r, i, -, -, hexec⟩
  · exact ⟨nextTurn s, _, ⟨_, _, _, _, rfl⟩, Or.inl .stay, Or.inl rfl⟩
  · exact ⟨takeRxb s, _, ⟨_, _, _, _, rfl⟩, Or.inl (rxByteOp_effect b _), Or.inl rfl⟩
  · exact executed (s' := takeCmd s) ⟨_, _, _, _, rfl⟩ hexec
  · exact executed (s' := takeBench s) ⟨_, _, _, _, rfl⟩ hexec

end Sys2Proof.Machine
end

section
/-! What no step does, effect by effect: take back an output (R29), act after a fault (R154, R157), reopen the
interface or remove a socket (R171). -/

namespace Sys2Proof.Machine

/-! ### Histories only grow (R29) -/

/-- Every history of `s` stands at the start of the same history of `t`. -/
structure Grown (s t : State) : Prop where
  txb : s.txb <+: t.txb
  cap : s.cap <+: t.cap
  diag : s.diag <+: t.diag
  bsClosed : s.bsClosed ≤ t.bsClosed
  cmdOut : s.cmdOut <+: t.cmdOut
  rcvOut : s.rcvOut <+: t.rcvOut

/-- The histories of `t` are those of `s`. -/
def SameHistories (s t : State) : Prop :=
  t.txb = s.txb ∧ t.cap = s.cap ∧ t.diag = s.diag ∧ t.bsClosed = s.bsClosed ∧ t.cmdOut = s.cmdOut ∧
    t.rcvOut = s.rcvOut

theorem isPrefix_of_eq {α : Type} {a b : List α} (h : b = a) : a <+: b := ⟨[], by rw [List.append_nil, h]⟩

theorem SameHistories.grown {s t : State} (h : SameHistories s t) : Grown s t := by
  obtain ⟨htxb, hcap, hdiag, hbs, hcmd, hrcv⟩ := h
  exact ⟨isPrefix_of_eq htxb, isPrefix_of_eq hcap, isPrefix_of_eq hdiag, hbs.ge, isPrefix_of_eq hcmd,
    isPrefix_of_eq hrcv⟩

theorem Grown.refl (s : State) : Grown s s := SameHistories.grown ⟨rfl, rfl, rfl, rfl, rfl, rfl⟩

theorem Grown.trans {s t u : State} (h : Grown s t) (h' : Grown t u) : Grown s u :=
  ⟨h.txb.trans h'.txb, h.cap.trans h'.cap, h.diag.trans h'.diag, h.bsClosed.trans h'.bsClosed,
    h.cmdOut.trans h'.cmdOut, h.rcvOut.trans h'.rcvOut⟩

theorem Took.grown {s u : State} (h : Took s u) : Grown s u := by
  obtain ⟨b, c, rfl, -, hc⟩ := h
  exact { Grown.refl s with cap := hc }

theorem raise_grown (c : Cause) (info : Option Nat) (s : State) : Grown s (raise c info s) :=
  { Grown.refl s with diag := ⟨_, rfl⟩ }

theorem bindNew_sameHistories (sp : Space) (key : U16) (s : State) : SameHistories s (bindNew sp key s) := by
  simp [SameHistories, bindNew]

theorem closeSock_sameHistories (sid : SockId) (s : State) : SameHistories s (closeSock sid s) := by
  obtain ⟨p, b, r, k, h⟩ := closeSock_frame s sid
  rw [h]
  exact ⟨rfl, rfl, rfl, rfl, rfl, rfl⟩

theorem detach_sameHistories (s : State) : SameHistories s (detach s) := by
  obtain ⟨p, b, r, k, h⟩ := detach_frame s
  rw [h]
  exact ⟨rfl, rfl, rfl, rfl, rfl, rfl⟩

theorem shutDown_grown (s : State) : Grown s (shutDown s) := by
  obtain ⟨p, b, r, k, h⟩ := shutDown_frame s
  rw [h]
  exact { Grown.refl s with bsClosed := Nat.le_succ _ }

theorem txDatagramOp_grown (n : U16) (dg : Bytes) (s : State) : Grown s (txDatagramOp n dg s) :=
  { ((Took.refl s).capture dirSent (encap n dg)).grown with
    txb := by rw [txDatagramOp_eq]; exact ⟨_, rfl⟩ }

theorem Effect.grown {s u : State} (h : Effect s u) : Grown s u := by
  cases h with
  | overflow => exact { Grown.refl s with diag := ⟨_, rfl⟩ }
  | report c info hu => exact hu.grown.trans (raise_grown c info _)
  | deliver sid payload hu => exact hu.grown.trans (SameHistories.grown ⟨rfl, rfl, rfl, rfl, rfl, rfl⟩)
  | bind sp key => exact (bindNew_sameHistories sp key s).grown
  | close sid => exact (closeSock_sameHistories sid s).grown
  | transmit n dg => exact txDatagramOp_grown n dg s
  | shut => exact shutDown_grown s
  | detach => exact (detach_sameHistories s).grown
  -- Updates that name no history.
  | stay | sync | collect | receive | configure | attach | offer =>
    exact SameHistories.grown ⟨rfl, rfl, rfl, rfl, rfl, rfl⟩

theorem Answered.grown {u t : State} (h : Answered u t) : Grown u t := by
  rcases h with rfl | ⟨r, rfl⟩ | ⟨r, rfl⟩
  · exact Grown.refl t
  · exact { Grown.refl u with cmdOut := ⟨_, rfl⟩ }
  · exact { Grown.refl u with rcvOut := ⟨_, rfl⟩ }

theorem resetOp_sameHistories (P : Params) (s : State) : SameHistories s (resetOp P s) :=
  ⟨rfl, rfl, rfl, rfl, rfl, rfl⟩

theorem Relaned.grown {s u : State} (h : Relaned s u) : Grown s u := by
  obtain ⟨x, y, c, b, rfl⟩ := h
  exact SameHistories.grown ⟨rfl, rfl, rfl, rfl, rfl, rfl⟩

theorem step_grown {s t : State} (h : step s = .next t) : Grown s t := by
  obtain ⟨s', u, hs', heffect, ht⟩ := step_effect h
  refine hs'.grown.trans (Grown.trans ?_ ht.grown)
  rcases heffect with heffect | rfl
  · exact heffect.grown
  · exact (resetOp_sameHistories params _).grown

/-- Settles O40 (R29): every effect, and every answer, only appends to a history (`step_grown`). -/
theorem outputHistoriesOnlyGrow : Obligations.OutputHistoriesOnlyGrow := fun _ _ h =>
  have ⟨htxb, hcap, hdiag, hbs, hcmd, hrcv⟩ := step_grown h
  ⟨htxb, hcap, hdiag, hbs, hcmd, hrcv⟩

/-! ### After a fault nothing else is done (R154, R157) -/

/-- The outputs and stores a faulting step leaves alone. -/
def SameButReports (s t : State) : Prop :=
  t.txb = s.txb ∧ t.sock = s.sock ∧ t.proto = s.proto ∧ t.beport = s.beport ∧ t.relport = s.relport

/-- No event on `DIAG`, or one and nothing sent, closed, bound or delivered. -/
def FaultOnly (s t : State) : Prop :=
  t.diag = s.diag ∨ (∃ e, t.diag = s.diag ++ [e]) ∧ SameButReports s t

theorem Took.diag_eq {s u : State} (h : Took s u) : u.diag = s.diag := by
  obtain ⟨b, c, rfl, -, -⟩ := h
  rfl

theorem Took.sameButReports {s u : State} (h : Took s u) : SameButReports s u := by
  obtain ⟨b, c, rfl, -, -⟩ := h
  exact ⟨rfl, rfl, rfl, rfl, rfl⟩

/-- The two effects that raise a fault touch no more than the splitter and `CAP`; no other effect raises one. -/
theorem Effect.faultOnly {s u : State} (h : Effect s u) : FaultOnly s u := by
  cases h with
  | overflow => exact Or.inr ⟨⟨_, rfl⟩, rfl, rfl, rfl, rfl, rfl⟩
  | report c info hu => exact Or.inr ⟨⟨_, by rw [raise_diag, hu.diag_eq]⟩, hu.sameButReports⟩
  | deliver sid payload hu => exact Or.inl hu.diag_eq
  | bind sp key => exact Or.inl (by simp [bindNew])
  | close sid =>
    obtain ⟨p, b, r, k, hframe⟩ := closeSock_frame s sid
    exact Or.inl (by rw [hframe])
  | transmit n dg => exact Or.inl (by rw [txDatagramOp_eq])
  | shut =>
    obtain ⟨p, b, r, k, hframe⟩ := shutDown_frame s
    exact Or.inl (by rw [hframe])
  | detach =>
    obtain ⟨p, b, r, k, hframe⟩ := detach_frame s
    exact Or.inl (by rw [hframe])
  -- Updates that do not name DIAG.
  | stay | sync | collect | receive | configure | attach | offer => exact Or.inl rfl

theorem Answered.faultOnly {s u t : State} (ht : Answered u t) (h : FaultOnly s u) : FaultOnly s t := by
  rcases ht with rfl | ⟨r, rfl⟩ | ⟨r, rfl⟩ <;> exact h

/-- Settles O39 (R154, R157): taking the event touches only the lanes, one effect follows (`Effect.faultOnly`),
and an answer touches only its history. -/
theorem faultingStepOnlyReports : Obligations.FaultingStepOnlyReports := by
  intro s t h
  obtain ⟨s', u, ⟨x, y, c, b, rfl⟩, heffect, ht⟩ := step_effect h
  rcases heffect with heffect | rfl
  · exact ht.faultOnly heffect.faultOnly
  · exact ht.faultOnly (Or.inl rfl)

/-! ### Only `RESET` reopens and removes (R171) -/

/-- A closed interface stays closed and no id leaves the store. -/
def KeepsSockets (s t : State) : Prop :=
  (s.ifOpen = false → t.ifOpen = false) ∧ ∀ sid, Store.find sid s.sock ≠ none → Store.find sid t.sock ≠ none

theorem keepsSockets_of_eq {s t : State} (ho : t.ifOpen = s.ifOpen) (hk : t.sock = s.sock) :
    KeepsSockets s t := by
  rw [KeepsSockets, ho, hk]
  exact ⟨id, fun _ => id⟩

theorem Store.find_upd_ne_none {α : Type} {a k : Nat} {f : α → α} {t : Store α}
    (h : Store.find a t ≠ none) : Store.find a (Store.upd k f t) ≠ none := by
  rw [Store.find_upd]
  split
  · simpa using h
  · exact h

theorem closeAll_find_ne_none (sids : List SockId) {s : State} {a : SockId} (h : Store.find a s.sock ≠ none) :
    Store.find a (closeAll sids s).sock ≠ none := by
  rw [closeAll_find]
  split
  · simpa using h
  · exact h

theorem closeSock_keepsSockets (sid : SockId) (s : State) : KeepsSockets s (closeSock sid s) := by
  obtain ⟨p, b, r, k, hframe⟩ := closeSock_frame s sid
  refine ⟨fun ho => by rw [hframe]; exact ho, fun a ha => closeAll_find_ne_none [sid] ha⟩

theorem detach_keepsSockets (s : State) : KeepsSockets s (detach s) := by
  obtain ⟨p, b, r, k, hframe⟩ := detach_frame s
  exact ⟨fun ho => by rw [hframe]; exact ho, fun a ha => closeAll_find_ne_none _ ha⟩

theorem shutDown_sock (s : State) : (shutDown s).sock = (closeAll (Store.keys s.sock) s).sock :=
  dropSwitch_sock _

theorem shutDown_keepsSockets (s : State) : KeepsSockets s (shutDown s) :=
  ⟨fun _ => rfl, fun a ha => by rw [shutDown_sock]; exact closeAll_find_ne_none _ ha⟩

theorem bindNew_keepsSockets (sp : Space) (key : U16) (s : State) : KeepsSockets s (bindNew sp key s) := by
  refine ⟨fun ho => by simpa [bindNew] using ho, fun a ha => ?_⟩
  rw [bindNew, register_sock, Store.find_set]
  split
  · exact Option.some_ne_none _
  · exact ha

theorem Took.keepsSockets {s u : State} (h : Took s u) : KeepsSockets s u := by
  obtain ⟨b, c, rfl, -, -⟩ := h
  exact keepsSockets_of_eq rfl rfl

theorem Effect.keepsSockets {s u : State} (h : Effect s u) : KeepsSockets s u := by
  cases h with
  | report c info hu => exact hu.keepsSockets
  | deliver sid payload hu =>
    obtain ⟨ho, hk⟩ := hu.keepsSockets
    exact ⟨ho, fun a ha => Store.find_upd_ne_none (hk a ha)⟩
  | bind sp key => exact bindNew_keepsSockets sp key s
  | close sid => exact closeSock_keepsSockets sid s
  | transmit n dg => rw [txDatagramOp_eq]; exact keepsSockets_of_eq rfl rfl
  | receive sid rest => exact ⟨id, fun a ha => Store.find_upd_ne_none ha⟩
  | shut => exact shutDown_keepsSockets s
  | detach => exact detach_keepsSockets s
  -- Updates that name neither the interface nor the store.
  | stay | sync | collect | overflow | configure | attach | offer => exact keepsSockets_of_eq rfl rfl

theorem exec_reset (s : State) : exec .reset s = .next (replied .ok (resetOp params s)) := rfl

/-- Settles O10 (R171): `RESET` is one update, and of the other effects none reopens the interface or removes a
record (`Effect.keepsSockets`). -/
theorem resetAloneRestoresTheResetState : Obligations.ResetAloneRestoresTheResetState := by
  refine ⟨exec_reset, fun i s t h hi => ?_⟩
  obtain ⟨u, heffect | ⟨rfl, -⟩, ht⟩ := exec_effect h
  · have hkept := heffect.keepsSockets
    rcases ht with rfl | ⟨r, rfl⟩ | ⟨r, rfl⟩ <;> exact hkept
  · exact absurd rfl hi

end Sys2Proof.Machine
end

section
/-! The nine invariants of R32 are kept by every effect, and so by every step. -/

namespace Sys2Proof.Machine

/-! ### Entries -/

theorem entryIs_unique {sp : Space} {key : U16} {a b : SockId} {s : State} (ha : entryIs sp key a s)
    (hb : entryIs sp key b s) : a = b := by
  cases sp with
  | proto => exact Endpoint.raw.inj (Option.some.inj (ha.symm.trans hb))
  | beport | relport => exact Option.some.inj (ha.symm.trans hb)

theorem not_entryIs_of_not_bound {sp : Space} {key : U16} {s : State} (h : bound sp key s = false)
    (a : SockId) : ¬entryIs sp key a s := by
  intro ha
  cases sp <;> exact Option.some_ne_none _ (ha.symm.trans ((Store.has_false_iff _ _).1 h))

theorem ite_some_eq_some_iff {α : Type} {c : Prop} [Decidable c] {x y : α} {o : Option α} :
    (if c then some x else o) = some y ↔ (c ∧ x = y) ∨ (¬c ∧ o = some y) := by
  by_cases hc : c <;> simp [hc]

theorem entryIs_register (sp sp' : Space) (key key' : U16) (a sid : SockId) (s : State) :
    entryIs sp key a (register sp' key' sid s) ↔
      ((sp' = sp ∧ key = key') ∧ sid = a) ∨ (¬(sp' = sp ∧ key = key') ∧ entryIs sp key a s) := by
  cases sp
  case proto =>
    rw [entryIs, find_register_proto, ite_some_eq_some_iff]
    simp only [BitVec.toNat_inj, Endpoint.raw.injEq, entryIs]
  case beport =>
    rw [entryIs, find_register_beport, ite_some_eq_some_iff]
    simp only [BitVec.toNat_inj, entryIs]
  case relport =>
    rw [entryIs, find_register_relport, ite_some_eq_some_iff]
    simp only [BitVec.toNat_inj, entryIs]

/-! ### Changes the invariants do not see -/

/-- The elements of the state that the invariants read are the same. -/
def SameCore (s t : State) : Prop :=
  t.mode = s.mode ∧ t.buf = s.buf ∧ t.ifOpen = s.ifOpen ∧ t.proto = s.proto ∧ t.beport = s.beport ∧
    t.relport = s.relport ∧ t.sock = s.sock ∧ t.nextSid = s.nextSid

section Updates

variable {P : Params} {s : State}

theorem Inv.of_sameCore {t : State} (h : Inv P s) (hst : SameCore s t) : Inv P t := by
  obtain ⟨hmode, hbuf, ho, hproto, hbeport, hrelport, hsock, hsid⟩ := hst
  cases s
  cases t
  cases hmode; cases hbuf; cases ho; cases hproto; cases hbeport; cases hrelport; cases hsock; cases hsid
  exact ⟨h.wf, h.buf, h.entriesOpen, h.openEntered, h.switchPlace, h.portsNeedSwitch, h.sidsBelow, h.closedQuiet,
    h.closedEmpty, h.queuesBounded⟩

/-! ### The splitter (R32 items 1 and 7) -/

theorem Inv.splitter {m : Mode} {b : Bytes} (h : Inv P s) (hbuf : BufInv P { s with mode := m, buf := b })
    (hquiet : s.ifOpen = false → m = .waitSync ∧ b = []) : Inv P { s with mode := m, buf := b } where
  wf := h.wf
  buf := hbuf
  entriesOpen := h.entriesOpen
  openEntered := h.openEntered
  switchPlace := h.switchPlace
  portsNeedSwitch := h.portsNeedSwitch
  sidsBelow := h.sidsBelow
  closedQuiet := fun ho =>
    have ⟨hproto, hbeport, hrelport, _, _, hsockets⟩ := h.closedQuiet ho
    have ⟨hm, hb⟩ := hquiet ho
    ⟨hproto, hbeport, hrelport, hm, hb, hsockets⟩
  closedEmpty := h.closedEmpty
  queuesBounded := h.queuesBounded

theorem Took.inv {u : State} (hu : Took s u) (h : Inv P s) : Inv P u := by
  obtain ⟨b, c, rfl, hb, -⟩ := hu
  have hemptied : Inv P { s with buf := b } := by
    rcases hb with rfl | rfl
    · exact h
    · refine h.splitter ⟨Nat.zero_le _, List.not_mem_nil, fun _ => rfl⟩ fun ho => ?_
      obtain ⟨-, -, -, hm, -, -⟩ := h.closedQuiet ho
      exact ⟨hm, rfl⟩
  exact hemptied.of_sameCore ⟨rfl, rfl, rfl, rfl, rfl, rfl, rfl, rfl⟩

/-! ### Nothing bound and nothing open -/

/-- With empty registries, closed sockets and an idle splitter only the store's form and its ids are left to
ask for. -/
theorem inv_of_nothing_open (hm : s.mode = .waitSync) (hbuf : s.buf = []) (hproto : s.proto = [])
    (hbeport : s.beport = []) (hrelport : s.relport = []) (hwf : Store.wf s.sock = true)
    (hsockets : ∀ sid k, Store.find sid s.sock = some k → k.closed = true ∧ k.queue = [])
    (hsids : SidsBelow s) : Inv P s where
  wf := by
    rw [Memory.wf_iff, hproto, hbeport, hrelport]
    exact ⟨⟨rfl, rfl⟩, ⟨rfl, rfl⟩, ⟨rfl, rfl⟩, hwf⟩
  buf := by
    rw [BufInv, hbuf]
    exact ⟨Nat.zero_le _, List.not_mem_nil, fun _ => rfl⟩
  entriesOpen := by
    intro sp key sid hentry
    cases sp <;> simp [entryIs, hproto, hbeport, hrelport] at hentry
  openEntered := by
    intro sid k hk hc
    obtain ⟨hclosed, -⟩ := hsockets sid k hk
    cases hclosed.symm.trans hc
  switchPlace := by
    intro n hn
    rw [hproto] at hn
    cases hn
  portsNeedSwitch := fun _ => hbeport
  sidsBelow := hsids
  closedQuiet := fun _ => ⟨hproto, hbeport, hrelport, hm, hbuf, fun sid k hk => (hsockets sid k hk).1⟩
  closedEmpty := fun sid k hk _ => (hsockets sid k hk).2
  queuesBounded := fun depth _ sid k hk => by
    obtain ⟨-, hqueue⟩ := hsockets sid k hk
    rw [hqueue]
    exact Nat.zero_le depth

theorem resetOp_inv : Inv P (resetOp P s) :=
  inv_of_nothing_open rfl rfl rfl rfl rfl rfl (fun _ _ hk => by cases hk) (fun _ h => by cases h)

/-! ### Queues (R32 items 2, 3, 8 and 9) -/

/-- A queue update leaves the space, the key and the flag of every record. -/
theorem find_requeue {sid a : SockId} {q : Socket → List Bytes} {k' : Socket}
    (h : Store.find a (Store.upd sid (fun k => Socket.withQueue (q k) k) s.sock) = some k') :
    ∃ k, Store.find a s.sock = some k ∧ k'.space = k.space ∧ k'.key = k.key ∧ k'.closed = k.closed ∧
      (a ≠ sid → k' = k) := by
  rw [Store.find_upd] at h
  split at h
  · next ha =>
    obtain ⟨k, hk, rfl⟩ := Option.map_eq_some_iff.1 h
    exact ⟨k, hk, rfl, rfl, rfl, fun hne => absurd ha hne⟩
  · exact ⟨k', h, rfl, rfl, rfl, fun _ => rfl⟩

theorem find_requeue_of_find {sid a : SockId} (q : Socket → List Bytes) {k : Socket}
    (h : Store.find a s.sock = some k) :
    ∃ k', Store.find a (Store.upd sid (fun k => Socket.withQueue (q k) k) s.sock) = some k' ∧
      k'.space = k.space ∧ k'.key = k.key ∧ k'.closed = k.closed := by
  rw [Store.find_upd, h]
  split
  · exact ⟨_, rfl, rfl, rfl, rfl⟩
  · exact ⟨k, rfl, rfl, rfl, rfl⟩

/-- The queue of an open socket may become any list: with the unbounded depth item 9 asks for nothing. -/
theorem Inv.requeue {sid : SockId} {q : Socket → List Bytes} {k₀ : Socket} (h : Inv params s)
    (hk₀ : Store.find sid s.sock = some k₀) (hopen : k₀.closed = false) :
    Inv params { s with sock := Store.upd sid (fun k => Socket.withQueue (q k) k) s.sock } where
  wf := by
    obtain ⟨hproto, hbeport, hrelport, hsock⟩ := (Memory.wf_iff s).1 h.wf
    exact (Memory.wf_iff _).2 ⟨hproto, hbeport, hrelport, Store.wf_upd _ _ hsock⟩
  buf := h.buf
  entriesOpen := by
    intro sp key a hentry
    obtain ⟨k, hk, hsp, hkey, hc⟩ := h.entriesOpen sp key a hentry
    obtain ⟨k', hk', hsp', hkey', hc'⟩ := find_requeue_of_find q hk
    exact ⟨k', hk', hsp'.trans hsp, hkey'.trans hkey, hc'.trans hc⟩
  openEntered := by
    intro a k' hk' hc'
    obtain ⟨k, hk, hsp, hkey, hc, -⟩ := find_requeue hk'
    rw [hsp, hkey]
    exact h.openEntered a k hk (hc.symm.trans hc')
  switchPlace := h.switchPlace
  portsNeedSwitch := h.portsNeedSwitch
  sidsBelow := by
    intro a ha
    obtain ⟨k', hk'⟩ := (Store.has_iff _ _).1 ha
    obtain ⟨k, hk, -⟩ := find_requeue hk'
    exact h.sidsBelow a ((Store.has_iff _ _).2 ⟨k, hk⟩)
  closedQuiet := fun ho => by
    obtain ⟨hproto, hbeport, hrelport, hm, hbuf, hsockets⟩ := h.closedQuiet ho
    refine ⟨hproto, hbeport, hrelport, hm, hbuf, fun a k' hk' => ?_⟩
    obtain ⟨k, hk, -, -, hc, -⟩ := find_requeue hk'
    exact hc.trans (hsockets a k hk)
  closedEmpty := by
    intro a k' hk' hc'
    obtain ⟨k, hk, -, -, hc, hother⟩ := find_requeue hk'
    have hne : a ≠ sid := by
      rintro rfl
      obtain rfl : k₀ = k := Option.some.inj (hk₀.symm.trans hk)
      cases hopen.symm.trans (hc.symm.trans hc')
    rw [hother hne]
    exact h.closedEmpty a k hk (hc.symm.trans hc')
  queuesBounded := fun _ hdepth => by cases hdepth

theorem Reachable.socket_open {sid : SockId} (hsid : Reachable sid s) (h : Inv P s) :
    ∃ k, Store.find sid s.sock = some k ∧ k.closed = false := by
  rcases hsid with ⟨sp, key, hentry⟩ | hk
  · obtain ⟨k, hk, -, -, hc⟩ := h.entriesOpen sp key sid hentry
    exact ⟨k, hk, hc⟩
  · exact hk

theorem Took.sock_eq {u : State} (hu : Took s u) : u.sock = s.sock := by
  obtain ⟨b, c, rfl, -, -⟩ := hu
  rfl

/-! ### Closing (R32 items 2, 3, 5, 7 and 8) -/

/-- An open socket's entry is its own, so deleting it never deletes the switch. -/
theorem attached_closeSock (sid : SockId) (h : OpenEntered s) (ha : attached s = true) :
    attached (closeSock sid s) = true := by
  rcases closeSock_cases s sid with ⟨e, -⟩ | ⟨k, hk, hc, e⟩
  · rwa [e]
  · rw [attached_iff] at ha ⊢
    rw [e, find_deleteEntry_proto, if_neg]
    · exact ha
    · rintro ⟨hsp, hkey⟩
      obtain ⟨hentry, -⟩ := h sid k hk hc
      rw [hsp] at hentry
      have hraw : Store.find 0x3A29 s.proto = some (.raw sid) := hkey ▸ hentry
      cases ha.symm.trans hraw

theorem find_of_find_closeSock {sid a : SockId} {k' : Socket}
    (h : Store.find a (closeSock sid s).sock = some k') :
    ∃ k, Store.find a s.sock = some k ∧ (k' = k ∨ k' = k.shut) := by
  rw [closeSock_find] at h
  split at h
  · obtain ⟨k, hk, rfl⟩ := Option.map_eq_some_iff.1 h
    refine ⟨k, hk, ?_⟩
    split
    · exact Or.inl rfl
    · exact Or.inr rfl
  · exact ⟨k', h, Or.inl rfl⟩

theorem find_closeSock_open {sid a : SockId} {k : Socket}
    (h : Store.find a (closeSock sid s).sock = some k) (hc : k.closed = false) :
    a ≠ sid ∧ Store.find a s.sock = some k := by
  rw [closeSock_find] at h
  split at h
  · obtain ⟨k', hk', rfl⟩ := Option.map_eq_some_iff.1 h
    split at hc
    · next hclosed => cases hclosed.symm.trans hc
    · cases hc
  · next hne => exact ⟨hne, h⟩

theorem closeSock_keeps_openEntered (sid : SockId) (h : OpenEntered s) : OpenEntered (closeSock sid s) := by
  intro a k' hk' hc'
  obtain ⟨hne, hk'⟩ := find_closeSock_open hk' hc'
  obtain ⟨hentry, huniq⟩ := h a k' hk' hc'
  refine ⟨?_, fun sp key he => huniq sp key (entryIs_of_entryIs_closeSock he)⟩
  rcases closeSock_cases s sid with ⟨e, -⟩ | ⟨k, hk, hc, e⟩
  · rwa [e]
  · rw [e, entryIs_deleteEntry]
    refine ⟨?_, hentry⟩
    rintro ⟨hsp, hkey⟩
    obtain ⟨hown, -⟩ := h sid k hk hc
    rw [hsp, ← hkey] at hown
    exact hne (entryIs_unique hentry hown)

theorem closeSock_beport_eq_nil (sid : SockId) (h : s.beport = []) : (closeSock sid s).beport = [] := by
  rcases closeSock_cases s sid with ⟨e, -⟩ | ⟨k, -, -, e⟩
  · rwa [e]
  · rw [e, deleteEntry_beport]
    split <;> simp [h, Store.del]

theorem Inv.closeSock (sid : SockId) (h : Inv P s) : Inv P (closeSock sid s) := by
  obtain ⟨p, b, r, kk, hframe⟩ := closeSock_frame s sid
  have hmode : (Machine.closeSock sid s).mode = s.mode := by rw [hframe]
  have hbuf : (Machine.closeSock sid s).buf = s.buf := by rw [hframe]
  have ho : (Machine.closeSock sid s).ifOpen = s.ifOpen := by rw [hframe]
  have hsid : (Machine.closeSock sid s).nextSid = s.nextSid := by rw [hframe]
  refine ⟨closeSock_wf sid h.wf, ?_, closeSock_keeps_entriesOpen sid h.entriesOpen,
    closeSock_keeps_openEntered sid h.openEntered, closeSock_keeps_switchPlace sid h.switchPlace, ?_, ?_, ?_, ?_, ?_⟩
  · rw [BufInv, hmode, hbuf]
    exact h.buf
  · intro ha
    refine closeSock_beport_eq_nil sid (h.portsNeedSwitch ?_)
    rw [← Bool.not_eq_true] at ha ⊢
    exact mt (attached_closeSock sid h.openEntered) ha
  · intro a ha
    obtain ⟨k', hk'⟩ := (Store.has_iff _ _).1 ha
    obtain ⟨k, hk, -⟩ := find_of_find_closeSock hk'
    rw [hsid]
    exact h.sidsBelow a ((Store.has_iff _ _).2 ⟨k, hk⟩)
  · rw [ClosedQuiet, ho]
    intro hclosed
    have hquiet := h.closedQuiet hclosed
    rcases closeSock_cases s sid with ⟨e, -⟩ | ⟨k, hk, hc, -⟩
    · rwa [e]
    · obtain ⟨-, -, -, -, -, hsockets⟩ := hquiet
      cases (hsockets sid k hk).symm.trans hc
  · intro a k' hk' hc'
    obtain ⟨k, hk, rfl | rfl⟩ := find_of_find_closeSock hk'
    · exact h.closedEmpty a _ hk hc'
    · rfl
  · intro depth hdepth a k' hk'
    obtain ⟨k, hk, rfl | rfl⟩ := find_of_find_closeSock hk'
    · exact h.queuesBounded depth hdepth a _ hk
    · exact Nat.zero_le depth

/-! ### The switch (R32 items 4 and 5) -/

/-- Another protocol registry with the same sockets in it. -/
theorem Inv.reswitch {pr : Store Endpoint} {x : Bool} (h : Inv P s)
    (hwf : Store.wf pr = true ∧ Store.keys16 pr = true)
    (hraw : ∀ (key : U16) (sid : SockId),
      Store.find key.toNat pr = some (.raw sid) ↔ Store.find key.toNat s.proto = some (.raw sid))
    (hplace : ∀ n, Store.find n pr = some .beSwitch → n = protoBeDataNum.toNat)
    (hports : Store.find 0x3A29 pr ≠ some .beSwitch → s.beport = [])
    (hquiet : s.ifOpen = false → pr = []) : Inv P { s with proto := pr, beSimplex := x } where
  wf := by
    obtain ⟨-, hstores⟩ := (Memory.wf_iff s).1 h.wf
    exact (Memory.wf_iff _).2 ⟨hwf, hstores⟩
  buf := h.buf
  entriesOpen := by
    intro sp key sid hentry
    cases sp with
    | proto => exact h.entriesOpen .proto key sid ((hraw key sid).1 hentry)
    | beport => exact h.entriesOpen .beport key sid hentry
    | relport => exact h.entriesOpen .relport key sid hentry
  openEntered := by
    have hsame (sp : Space) (key : U16) (sid : SockId) :
        entryIs sp key sid { s with proto := pr, beSimplex := x } ↔ entryIs sp key sid s := by
      cases sp with
      | proto => exact hraw key sid
      | beport | relport => exact Iff.rfl
    intro sid k hk hc
    obtain ⟨hentry, huniq⟩ := h.openEntered sid k hk hc
    exact ⟨(hsame _ _ _).2 hentry, fun sp key he => huniq sp key ((hsame _ _ _).1 he)⟩
  switchPlace := hplace
  portsNeedSwitch := fun ha => hports ((attached_eq_false_iff _).1 ha)
  sidsBelow := h.sidsBelow
  closedQuiet := fun ho =>
    have ⟨_, hquietRest⟩ := h.closedQuiet ho
    ⟨hquiet ho, hquietRest⟩
  closedEmpty := h.closedEmpty
  queuesBounded := h.queuesBounded

theorem Inv.attach {x : Bool} (h : Inv P s) (ho : s.ifOpen = true)
    (hfree : Store.find protoBeDataNum.toNat s.proto = none) :
    Inv P { s with proto := Store.set protoBeDataNum.toNat .beSwitch s.proto, beSimplex := x } := by
  obtain ⟨⟨hwf, hkeys⟩, -⟩ := (Memory.wf_iff s).1 h.wf
  refine h.reswitch ⟨Store.wf_set _ _ hwf, Store.keys16_set (by decide) _ hkeys⟩ (fun key sid => ?_)
    (fun n hn => ?_) (fun hne => absurd (Store.find_set_same _ _ _) hne)
    fun hclosed => by cases ho.symm.trans hclosed
  · rw [Store.find_set]
    split
    · next hkey => simp [hkey, hfree]
    · exact Iff.rfl
  · rw [Store.find_set] at hn
    split at hn
    · assumption
    · exact h.switchPlace n hn

theorem Inv.dropSwitch (h : Inv P s) (ha : attached s = true) (hports : s.beport = []) :
    Inv P { s with proto := Store.del protoBeDataNum.toNat s.proto, beSimplex := false } := by
  obtain ⟨⟨hwf, hkeys⟩, -⟩ := (Memory.wf_iff s).1 h.wf
  refine h.reswitch ⟨Store.wf_del _ hwf, Store.keys16_del _ hkeys⟩ (fun key sid => ?_)
    (fun n hn => ?_) (fun _ => hports) fun hclosed => ?_
  · have hswitch : Store.find protoBeDataNum.toNat s.proto = some .beSwitch := (attached_iff s).1 ha
    rw [Store.find_del]
    split
    · next hkey => simp [hkey, hswitch]
    · exact Iff.rfl
  · rw [Store.find_del, Option.ite_none_left_eq_some] at hn
    exact h.switchPlace n hn.2
  · obtain ⟨hproto, -⟩ := h.closedQuiet hclosed
    rw [hproto]
    rfl

theorem Inv.detach (h : Inv P s) (ha : attached s = true) : Inv P (detach s) := by
  have hclosed : Inv P (closeAll (s.beport.map (·.2)) s) := closeAll_keeps (fun sid _ h => h.closeSock sid) _ h
  have hattached : attached (closeAll (s.beport.map (·.2)) s) = true := by
    obtain ⟨b, k, hframe⟩ := closeAll_of_isBeSocket (sids := s.beport.map (·.2))
      fun _ hmem => isBeSocket_of_mem_beport h hmem
    rw [hframe]
    exact ha
  exact hclosed.dropSwitch hattached (closeAll_beport_eq_nil h)

theorem Inv.shutDown (h : Inv P s) : Inv P (shutDown s) := by
  have hshut (a : SockId) := find_closeAll_keys h.closedEmpty a
  obtain ⟨-, -, -, hwf⟩ := (Memory.wf_iff _).1 (closeAll_wf (Store.keys s.sock) h.wf)
  rw [shutDown_eq h]
  refine inv_of_nothing_open rfl rfl rfl rfl rfl hwf (fun a k hk => ?_) fun a ha => ?_
  · rw [hshut] at hk
    obtain ⟨k', -, rfl⟩ := Option.map_eq_some_iff.1 hk
    exact ⟨rfl, rfl⟩
  · obtain ⟨k, hk⟩ := (Store.has_iff _ _).1 ha
    rw [hshut] at hk
    obtain ⟨k', hk', -⟩ := Option.map_eq_some_iff.1 hk
    exact h.sidsBelow a ((Store.has_iff _ _).2 ⟨k', hk'⟩)

/-! ### Binding (R32 items 2, 3, 5 and 6) -/

theorem find_bindNew (sp : Space) (key : U16) (a : SockId) : Store.find a (bindNew sp key s).sock =
    if a = s.nextSid then some (newSocket sp key) else Store.find a s.sock := by
  rw [bindNew, register_sock, Store.find_set]

theorem entryIs_bindNew (sp sp' : Space) (key key' : U16) (a : SockId) :
    entryIs sp' key' a (bindNew sp key s) ↔
      ((sp = sp' ∧ key' = key) ∧ s.nextSid = a) ∨ (¬(sp = sp' ∧ key' = key) ∧ entryIs sp' key' a s) :=
  entryIs_register sp' sp key' key a s.nextSid _

theorem SidsBelow.fresh (h : SidsBelow s) : Store.find s.nextSid s.sock = none :=
  (Store.has_false_iff _ _).1 (Bool.eq_false_of_not_eq_true fun hmem => Nat.lt_irrefl _ (h _ hmem))

/-- The switch is where it was: its key is bound, so it is not the key that is bound now. -/
theorem attached_bindNew {sp : Space} {key : U16} (hb : bound sp key s = false) (ha : attached s = true) :
    attached (bindNew sp key s) = true := by
  rw [attached_iff] at ha ⊢
  rw [bindNew, find_register_proto, if_neg]
  · exact ha
  · rintro ⟨rfl, hkey⟩
    have hnone : Store.find key.toNat s.proto = none := (Store.has_false_iff _ _).1 hb
    rw [← hkey] at hnone
    cases ha.symm.trans hnone

theorem Inv.bindNew {sp : Space} {key : U16} (h : Inv P s) (ho : s.ifOpen = true)
    (ha : sp = .beport → attached s = true) (hb : bound sp key s = false) : Inv P (bindNew sp key s) := by
  have hunbound := not_entryIs_of_not_bound hb
  have hfresh := h.sidsBelow.fresh
  have hbuf : BufInv P (Machine.bindNew sp key s) := by simpa [BufInv, Machine.bindNew] using h.buf
  refine ⟨bindNew_wf sp key h.wf, hbuf, ?entriesOpen, ?openEntered, ?switchPlace, ?portsNeedSwitch,
    ?sidsBelow, ?closedQuiet, ?closedEmpty, ?queuesBounded⟩
  case entriesOpen =>
    intro sp' key' a hentry
    rw [find_bindNew]
    rcases (entryIs_bindNew _ _ _ _ _).1 hentry with ⟨⟨rfl, rfl⟩, rfl⟩ | ⟨-, hold⟩
    · exact ⟨_, if_pos rfl, rfl, rfl, rfl⟩
    · obtain ⟨k, hk, hrest⟩ := h.entriesOpen sp' key' a hold
      have hne : a ≠ s.nextSid := by
        rintro rfl
        cases hfresh.symm.trans hk
      exact ⟨k, by rw [if_neg hne, hk], hrest⟩
  case openEntered =>
    intro a k hk hc
    rw [find_bindNew] at hk
    split at hk
    · next hnew =>
      cases hk
      subst hnew
      refine ⟨(entryIs_bindNew _ _ _ _ _).2 (Or.inl ⟨⟨rfl, rfl⟩, rfl⟩), fun sp' key' hentry => ?_⟩
      rcases (entryIs_bindNew _ _ _ _ _).1 hentry with ⟨⟨rfl, rfl⟩, -⟩ | ⟨-, hold⟩
      · exact ⟨rfl, rfl⟩
      · obtain ⟨k, hk, -⟩ := h.entriesOpen sp' key' _ hold
        cases hfresh.symm.trans hk
    · next hne =>
      obtain ⟨hentry, huniq⟩ := h.openEntered a k hk hc
      refine ⟨(entryIs_bindNew _ _ _ _ _).2 (Or.inr ⟨?_, hentry⟩), fun sp' key' hnew => ?_⟩
      · rintro ⟨rfl, hkey⟩
        exact hunbound a (hkey ▸ hentry)
      · rcases (entryIs_bindNew _ _ _ _ _).1 hnew with ⟨-, rfl⟩ | ⟨-, hold⟩
        · exact absurd rfl hne
        · exact huniq sp' key' hold
  case switchPlace =>
    intro n hn
    rw [Machine.bindNew, find_register_proto] at hn
    split at hn
    · cases hn
    · exact h.switchPlace n hn
  case portsNeedSwitch =>
    intro hdetached
    have hbefore : attached s = false := by
      rw [← Bool.not_eq_true] at hdetached ⊢
      exact mt (attached_bindNew hb) hdetached
    have hsp : sp ≠ .beport := fun hsp => by cases hbefore.symm.trans (ha hsp)
    rw [Machine.bindNew, register_beport, if_neg hsp]
    exact h.portsNeedSwitch hbefore
  case sidsBelow =>
    intro a hmem
    obtain ⟨k, hk⟩ := (Store.has_iff _ _).1 hmem
    rw [find_bindNew] at hk
    rw [Machine.bindNew, register_nextSid]
    split at hk
    · next hnew => exact hnew ▸ Nat.lt_succ_self _
    · exact Nat.lt_succ_of_lt (h.sidsBelow a ((Store.has_iff _ _).2 ⟨k, hk⟩))
  case closedQuiet =>
    intro hclosed
    rw [Machine.bindNew, register_ifOpen] at hclosed
    cases ho.symm.trans hclosed
  case closedEmpty =>
    intro a k hk hc
    rw [find_bindNew] at hk
    split at hk
    · cases hk
      rfl
    · exact h.closedEmpty a k hk hc
  case queuesBounded =>
    intro depth hdepth a k hk
    rw [find_bindNew] at hk
    split at hk
    · cases hk
      exact Nat.zero_le depth
    · exact h.queuesBounded depth hdepth a k hk

end Updates

/-! ### Every effect, every step -/

theorem bufInv_bufAppend {P : Params} {b : Byte} {s : State} (h : BufInv P s) (hm : s.mode = .collect)
    (hb : b ≠ flag) (hroom : s.buf.length < P.maxFrameLen) : BufInv P (bufAppend b s) := by
  obtain ⟨-, hfree, -⟩ := h
  refine ⟨by simpa using hroom, by simpa [hfree] using hb.symm, fun hwait => ?_⟩
  rw [bufAppend_mode] at hwait
  cases hm.symm.trans hwait

theorem Effect.inv {s u : State} (hu : Effect s u) (h : Inv params s) : Inv params u := by
  cases hu with
  | stay => exact h
  | sync ho =>
    obtain ⟨hlen, hfree, -⟩ := h.buf
    exact h.splitter ⟨hlen, hfree, fun hwait => by cases hwait⟩ fun hclosed => by cases ho.symm.trans hclosed
  | collect b ho hm hb hroom =>
    exact h.splitter (bufInv_bufAppend h.buf hm hb hroom) fun hclosed => by cases ho.symm.trans hclosed
  | overflow =>
    have hcleared : Inv params { s with mode := .waitSync, buf := [] } :=
      h.splitter ⟨Nat.zero_le _, List.not_mem_nil, fun _ => rfl⟩ fun _ => ⟨rfl, rfl⟩
    exact hcleared.of_sameCore ⟨rfl, rfl, rfl, rfl, rfl, rfl, rfl, rfl⟩
  | report c info hu => exact (hu.inv h).of_sameCore ⟨rfl, rfl, rfl, rfl, rfl, rfl, rfl, rfl⟩
  | deliver sid payload hu hsid =>
    obtain ⟨k, hk, hc⟩ := hsid.socket_open h
    exact (hu.inv h).requeue (by rw [hu.sock_eq]; exact hk) hc
  | bind sp key ho ha hb => exact h.bindNew ho ha hb
  | close sid => exact h.closeSock sid
  | transmit n dg =>
    rw [txDatagramOp_eq]
    exact h.of_sameCore ⟨rfl, rfl, rfl, rfl, rfl, rfl, rfl, rfl⟩
  | receive sid rest hk hc => exact h.requeue hk hc
  | shut ho => exact h.shutDown
  | configure v en => exact h.of_sameCore ⟨rfl, rfl, rfl, rfl, rfl, rfl, rfl, rfl⟩
  | attach x ho hfree => exact h.attach ho hfree
  | detach ha => exact h.detach ha
  | offer bytes turns => exact h.of_sameCore ⟨rfl, rfl, rfl, rfl, rfl, rfl, rfl, rfl⟩

theorem step_inv {s t : State} (h : Inv params s) (hstep : step s = .next t) : Inv params t := by
  obtain ⟨s', u, ⟨x, y, c, b, rfl⟩, heffect, ht⟩ := step_effect hstep
  have hu : Inv params u := by
    rcases heffect with heffect | rfl
    · exact heffect.inv (h.of_sameCore ⟨rfl, rfl, rfl, rfl, rfl, rfl, rfl, rfl⟩)
    · exact resetOp_inv
  rcases ht with rfl | ⟨r, rfl⟩ | ⟨r, rfl⟩
  · exact hu
  · exact hu.of_sameCore ⟨rfl, rfl, rfl, rfl, rfl, rfl, rfl, rfl⟩
  · exact hu.of_sameCore ⟨rfl, rfl, rfl, rfl, rfl, rfl, rfl, rfl⟩

/-- Settles O8 (R32): at power-on reset nothing is bound, the store is empty and the splitter is idle. -/
theorem resetMeetsTheNineInvariants : Obligations.ResetMeetsTheNineInvariants :=
  inv_of_nothing_open rfl rfl rfl rfl rfl rfl (fun _ _ hk => by cases hk) (fun _ h => by cases h)

/-- Settles O9 (R32): reset meets the invariants and every effect keeps them (`Effect.inv`, `step_inv`). -/
theorem everyStepKeepsTheNineInvariants : Obligations.EveryStepKeepsTheNineInvariants :=
  ⟨resetMeetsTheNineInvariants, fun _ _ h hstep => step_inv h hstep⟩

end Sys2Proof.Machine
end

section
/-! Records (log entry 3): each operand reader takes exactly what the encoder writes for its operand, so a row
is read from a record exactly if the record is the encoding of what is read (`encode_of_decodeRow`,
`decodeRow_of_encode`). -/

namespace Sys2Proof.Machine

/-! ### The operand readers -/

theorem bind_eq_ok_iff {ε α β : Type} {x : Except ε α} {f : α → Except ε β} {b : β} :
    (x >>= f) = .ok b ↔ ∃ a, x = .ok a ∧ f a = .ok b := by
  cases x with
  | error e => exact ⟨nofun, nofun⟩
  | ok a => exact ⟨fun h => ⟨a, rfl, h⟩, fun ⟨_, ha, h⟩ => by cases ha; exact h⟩

theorem ok_bind {ε α β : Type} (a : α) (f : α → Except ε β) : (Except.ok a >>= f) = f a := rfl

theorem finish_nil (i : Instr) : finish i [] = .ok i := rfl

/-- A field in the low bits of a byte whose other bits are 0. -/
theorem setWidth_eq_iff {w : Nat} (hw : w ≤ 8) (b : Byte) (v : BitVec w) :
    (b.toNat < 2 ^ w ∧ b.setWidth w = v) ↔ b = v.setWidth 8 := by
  have hv : v.toNat < 2 ^ 8 := v.isLt.trans_le (Nat.pow_le_pow_right (by decide) hw)
  rw [← BitVec.toNat_inj, ← BitVec.toNat_inj (x := b), BitVec.toNat_setWidth, BitVec.toNat_setWidth,
    Nat.mod_eq_of_lt hv]
  constructor
  · rintro ⟨hb, hmod⟩
    rwa [Nat.mod_eq_of_lt hb] at hmod
  · intro h
    rw [h]
    exact ⟨v.isLt, Nat.mod_eq_of_lt v.isLt⟩

section Readers

variable {r r' : Bytes}

theorem takeByte_eq_ok_iff {b : Byte} : takeByte r = .ok (b, r') ↔ r = b :: r' := by
  cases r <;> simp [takeByte]

theorem be16_fromBe16 (hi lo : Byte) : be16 (fromBe16 hi lo) = [hi, lo] := by
  rw [be16_eq_bytes16, bytes16_fromBe16]

theorem fromBe16_be16 (v : U16) : fromBe16 (v.extractLsb' 8 8) (v.extractLsb' 0 8) = v := by
  have hbytes := be16_eq_bytes16 v
  simp only [be16, bytes16, List.cons.injEq, and_true] at hbytes
  obtain ⟨hhi, hlo⟩ := hbytes
  rw [hhi, hlo, fromBe16_bytes16]

theorem takeU16_eq_ok_iff {v : U16} : takeU16 r = .ok (v, r') ↔ r = be16 v ++ r' := by
  constructor
  · intro h
    match r with
    | [] => cases h
    | [b] => cases h
    | hi :: lo :: rest =>
      cases h
      rw [be16_fromBe16]
      rfl
  · rintro rfl
    exact congrArg (fun w => Except.ok (w, r')) (fromBe16_be16 v)

theorem takeExact_eq_ok_iff {pat : Byte} : takeExact pat r = .ok r' ↔ r = pat :: r' := by
  cases r with
  | nil => simp [takeExact]
  | cons b rest =>
    rw [takeExact]
    split
    · next h => simp [h]
    · next h => simp [h]

theorem takeExact16_eq_ok_iff {pat : U16} : takeExact16 pat r = .ok r' ↔ r = be16 pat ++ r' := by
  rw [← takeU16_eq_ok_iff]
  match r with
  | [] => simp [takeExact16, takeU16]
  | [b] => simp [takeExact16, takeU16]
  | hi :: lo :: rest =>
    rw [takeExact16, takeU16]
    split
    · next h => simp [h]
    · next h => simp [h]

theorem finish_eq_ok_iff {i j : Instr} : finish i r = .ok j ↔ r = [] ∧ i = j := by
  cases r <;> simp [finish]

theorem takeBool_eq_ok_iff {x : Bool} : takeBool r = .ok (x, r') ↔ r = encBool x :: r' := by
  cases r with
  | nil => simp [takeBool]
  | cons b rest =>
    rw [takeBool]
    split_ifs with h0 h1 <;> cases x <;> simp_all [encBool]

theorem takeSpace_eq_ok_iff {sp : Space} : takeSpace r = .ok (sp, r') ↔ r = encSpace sp :: r' := by
  cases r with
  | nil => simp [takeSpace]
  | cons b rest =>
    rw [takeSpace]
    split_ifs with h0 h1 h2 <;> cases sp <;> simp_all [encSpace]

theorem takePortSpace_eq_ok_iff {sp : PortSpace} :
    takePortSpace r = .ok (sp, r') ↔ r = encPortSpace sp :: r' := by
  cases r with
  | nil => simp [takePortSpace]
  | cons b rest =>
    rw [takePortSpace]
    split_ifs with h1 h2 <;> cases sp <;> simp_all [encPortSpace]

theorem takeKind_eq_ok_iff {k : SupKind} : takeKind r = .ok (k, r') ↔ r = encKind k :: r' := by
  cases r with
  | nil => simp [takeKind]
  | cons b rest =>
    rw [takeKind]
    split_ifs with h0 h1 h2 <;> cases k <;> simp_all [encKind, kindBits]

theorem takeSeq7_eq_ok_iff {v : Seq7} : takeSeq7 r = .ok (v, r') ↔ r = v.setWidth 8 :: r' := by
  cases r with
  | nil => simp [takeSeq7]
  | cons b rest =>
    have hfits : (b.toNat < 128 ∧ b.setWidth 7 = v) ↔ b = v.setWidth 8 := setWidth_eq_iff (by decide) b v
    rw [takeSeq7, List.cons_eq_cons, ← hfits]
    split
    · next h => simp [h]
    · next h => simp [h]

theorem takeBit1_eq_ok_iff {v : Bit1} : takeBit1 r = .ok (v, r') ↔ r = v.setWidth 8 :: r' := by
  cases r with
  | nil => simp [takeBit1]
  | cons b rest =>
    have hfits : (b.toNat < 2 ∧ b.setWidth 1 = v) ↔ b = v.setWidth 8 := setWidth_eq_iff (by decide) b v
    rw [takeBit1, List.cons_eq_cons, ← hfits]
    split
    · next h => simp [h]
    · next h => simp [h]

/-! ### Natural numbers in base 128 -/

/-- The number of digits does not depend on the fuel once it covers the number. -/
theorem encNatGo_eq_of_le {fuel fuel' n : Nat} (h : n ≤ fuel) (h' : n ≤ fuel') :
    encNatGo fuel n = encNatGo fuel' n := by
  induction fuel generalizing fuel' n with
  | zero =>
    obtain rfl : n = 0 := Nat.le_zero.1 h
    cases fuel' <;> rfl
  | succ fuel ih =>
    cases fuel' with
    | zero =>
      obtain rfl : n = 0 := Nat.le_zero.1 h'
      rfl
    | succ fuel' =>
      rw [encNatGo, encNatGo, ih (n := n / 128) (fuel' := fuel') (by omega) (by omega)]

theorem encNat_of_lt {n : Nat} (h : n < 128) : encNat n = [BitVec.ofNat 8 n] := by
  cases n with
  | zero => rfl
  | succ n => rw [encNat, encNatGo, if_pos h]

theorem encNat_of_ge {n : Nat} (h : 128 ≤ n) :
    encNat n = BitVec.ofNat 8 (n % 128 + 128) :: encNat (n / 128) := by
  obtain ⟨m, rfl⟩ : ∃ m, n = m + 1 := ⟨n - 1, by omega⟩
  rw [encNat, encNatGo, if_neg (by omega), encNat,
    encNatGo_eq_of_le (fuel' := (m + 1) / 128) (by omega) le_rfl]

theorem takeNat_encNat_append (n : Nat) (r : Bytes) : takeNat (encNat n ++ r) = .ok (n, r) := by
  induction n using Nat.strong_induction_on with
  | _ n ih =>
    rcases Nat.lt_or_ge n 128 with hlt | hge
    · have hdigit : (BitVec.ofNat 8 n).toNat = n := by rw [BitVec.toNat_ofNat]; omega
      rw [encNat_of_lt hlt, List.singleton_append, takeNat, hdigit, if_pos hlt]
    · have hdigit : (BitVec.ofNat 8 (n % 128 + 128)).toNat = n % 128 + 128 := by
        rw [BitVec.toNat_ofNat]; omega
      obtain ⟨m, hm⟩ : ∃ m, n / 128 = m + 1 := ⟨n / 128 - 1, by omega⟩
      have hrest := ih (n / 128) (by omega)
      rw [encNat_of_ge hge, List.cons_append, takeNat, hdigit, if_neg (by omega), hrest, hm]
      have hvalue : n % 128 + 128 - 128 + 128 * (m + 1) = n := by omega
      simp only [hvalue]

theorem eq_encNat_append_of_takeNat {n : Nat} (h : takeNat r = .ok (n, r')) : r = encNat n ++ r' := by
  induction r generalizing n with
  | nil => cases h
  | cons b rest ih =>
    have hb := b.isLt
    rw [takeNat] at h
    split at h
    · next hlt =>
      cases h
      rw [encNat_of_lt hlt, BitVec.ofNat_toNat, BitVec.setWidth_eq]
      rfl
    · next hge =>
      split at h
      · cases h
      · cases h
      · next m rest' hrest =>
        cases h
        have hdiv : (b.toNat - 128 + 128 * (m + 1)) / 128 = m + 1 := by omega
        have hmod : (b.toNat - 128 + 128 * (m + 1)) % 128 + 128 = b.toNat := by omega
        rw [encNat_of_ge (by omega), hdiv, hmod, BitVec.ofNat_toNat, BitVec.setWidth_eq, List.cons_append,
          ← ih hrest]

theorem takeNat_eq_ok_iff {n : Nat} : takeNat r = .ok (n, r') ↔ r = encNat n ++ r' :=
  ⟨eq_encNat_append_of_takeNat, fun h => h ▸ takeNat_encNat_append n r'⟩

/-! ### The classes of byte 0 of a reliable packet -/

theorem takeClass_eq_ok_iff {mask pat b : Byte} :
    takeClass mask pat r = .ok (b, r') ↔ inClass b mask pat = true ∧ r = b :: r' := by
  cases r with
  | nil => simp [takeClass]
  | cons c rest =>
    rw [takeClass]
    split
    · next h =>
      simp only [Except.ok.injEq, Prod.mk.injEq, List.cons.injEq]
      constructor
      · rintro ⟨rfl, rfl⟩; exact ⟨h, rfl, rfl⟩
      · rintro ⟨-, rfl, rfl⟩; exact ⟨rfl, rfl⟩
    · next h =>
      simp only [reduceCtorEq, List.cons.injEq, false_iff]
      rintro ⟨hc, rfl, -⟩
      exact h hc

/-- A row whose byte is the class of one field, `get` and `put` being the two ways between them. -/
theorem takeClass_bind_eq_ok_iff {n : Nat} {mask pat : Byte} {get : Byte → BitVec n} {put : BitVec n → Byte}
    (hclass : ∀ b v, (inClass b mask pat = true ∧ get b = v) ↔ b = put v) (f : BitVec n → Bytes → Instr)
    (i : Instr) :
    (takeClass mask pat r >>= fun x => .ok (f (get x.1) x.2)) = .ok i ↔
      ∃ v q, r = put v :: q ∧ f v q = i := by
  simp only [bind_eq_ok_iff, Prod.exists, takeClass_eq_ok_iff, Except.ok.injEq]
  constructor
  · rintro ⟨b, q, ⟨hin, rfl⟩, rfl⟩
    exact ⟨get b, q, by rw [← (hclass b (get b)).1 ⟨hin, rfl⟩], rfl⟩
  · rintro ⟨v, q, rfl, rfl⟩
    obtain ⟨hin, hget⟩ := (hclass (put v) v).2 rfl
    exact ⟨put v, q, ⟨hin, rfl⟩, by rw [hget]⟩

end Readers

theorem info_class_iff (b : Byte) (ns : Seq7) :
    (inClass b 0x01 0x00 = true ∧ bits71 b = ns) ↔ b = infoByte0 ns := by
  constructor
  · rintro ⟨hin, rfl⟩
    exact (infoByte0_bits71 hin).symm
  · rintro rfl
    revert ns
    decide

theorem sup_class_iff (kind : BitVec 2) (b : Byte) (res : BitVec 4) :
    (inClass b 0x0F (supByte0 0 kind) = true ∧ bits74 b = res) ↔ b = supByte0 res kind := by
  constructor
  · rintro ⟨hin, rfl⟩
    exact (supByte0_bits74 kind hin).symm
  · rintro rfl
    revert res kind
    decide

theorem undef_class_iff (b : Byte) (high : BitVec 6) :
    (inClass b 0x03 0x03 = true ∧ bits72 b = high) ↔ b = undefByte0 high := by
  constructor
  · rintro ⟨hin, rfl⟩
    revert b
    decide
  · rintro rfl
    revert high
    decide

/-! ### Rows (R75) -/

/-- What a row reads from the bytes after its number, the record of it is the number and those bytes. -/
theorem encode_of_decodeRow {n : Nat} {r : Bytes} {i : Instr} (h : decodeRow n r = .ok i) :
    encode i = BitVec.ofNat 8 n :: r := by
  revert h
  unfold decodeRow
  split
  case h_53 =>
    intro h
    obtain ⟨ns, q, rfl, rfl⟩ := (takeClass_bind_eq_ok_iff info_class_iff Instr.relInfo i).1 h
    rfl
  case h_54 =>
    intro h
    obtain ⟨res, q, rfl, rfl⟩ := (takeClass_bind_eq_ok_iff (sup_class_iff 0) Instr.relSupRr i).1 h
    rfl
  case h_55 =>
    intro h
    obtain ⟨res, q, rfl, rfl⟩ := (takeClass_bind_eq_ok_iff (sup_class_iff 1) Instr.relSupRnr i).1 h
    rfl
  case h_56 =>
    intro h
    obtain ⟨res, q, rfl, rfl⟩ := (takeClass_bind_eq_ok_iff (sup_class_iff 2) Instr.relSupRej i).1 h
    rfl
  case h_57 =>
    intro h
    obtain ⟨res, q, rfl, rfl⟩ := (takeClass_bind_eq_ok_iff (sup_class_iff 3) Instr.relSupKindUndefined i).1 h
    rfl
  case h_58 =>
    intro h
    obtain ⟨high, q, rfl, rfl⟩ := (takeClass_bind_eq_ok_iff undef_class_iff Instr.relUndefined i).1 h
    rfl
  case h_28 | h_35 =>
    simp only [bind_eq_ok_iff, Prod.exists, takeNat_eq_ok_iff, finish_eq_ok_iff, exists_imp, and_imp]
    rintro sid rest rfl rfl rfl
    rw [List.append_nil]
    rfl
  case h_62 => exact nofun
  -- The other rows: their operands in order, each read by its reader, then the end of the record or the rest.
  all_goals
    simp only [bind_eq_ok_iff, Prod.exists, takeByte_eq_ok_iff, takeU16_eq_ok_iff, takeNat_eq_ok_iff,
      takeBool_eq_ok_iff, takeSpace_eq_ok_iff, takePortSpace_eq_ok_iff, takeKind_eq_ok_iff, takeSeq7_eq_ok_iff,
      takeBit1_eq_ok_iff, takeExact_eq_ok_iff, takeExact16_eq_ok_iff, finish_eq_ok_iff, Except.ok.injEq,
      exists_imp, and_imp]
    intros
    subst_vars
    rfl

/-- The row of an instruction reads it back from the bytes its record has after the row's number. -/
theorem decodeRow_of_encode (i : Instr) : ∃ r, encode i = BitVec.ofNat 8 (Laws.EncodeHead.row i) :: r ∧
    decodeRow (Laws.EncodeHead.row i) r = .ok i := by
  have byte8 (b : Byte) (q : Bytes) : takeByte (b :: q) = .ok (b, q) := rfl
  have byte16 (v : U16) (q : Bytes) : takeU16 (be16 v ++ q) = .ok (v, q) := takeU16_eq_ok_iff.2 rfl
  have last16 (v : U16) : takeU16 (be16 v) = .ok (v, []) := takeU16_eq_ok_iff.2 rfl
  have last (sid : SockId) : takeNat (encNat sid) = .ok (sid, []) := takeNat_eq_ok_iff.2 (List.append_nil _).symm
  have seq7 (v : Seq7) (q : Bytes) : takeSeq7 (v.setWidth 8 :: q) = .ok (v, q) := takeSeq7_eq_ok_iff.2 rfl
  have bit1 (v : Bit1) (q : Bytes) : takeBit1 (v.setWidth 8 :: q) = .ok (v, q) := takeBit1_eq_ok_iff.2 rfl
  have bool (x : Bool) (q : Bytes) : takeBool (encBool x :: q) = .ok (x, q) := takeBool_eq_ok_iff.2 rfl
  have space (sp : Space) (q : Bytes) : takeSpace (encSpace sp :: q) = .ok (sp, q) := takeSpace_eq_ok_iff.2 rfl
  have portSpace (sp : PortSpace) (q : Bytes) : takePortSpace (encPortSpace sp :: q) = .ok (sp, q) :=
    takePortSpace_eq_ok_iff.2 rfl
  have kind (k : SupKind) (q : Bytes) : takeKind (encKind k :: q) = .ok (k, q) := takeKind_eq_ok_iff.2 rfl
  have exact8 (pat : Byte) (q : Bytes) : takeExact pat (pat :: q) = .ok q := takeExact_eq_ok_iff.2 rfl
  have exact16 (pat : U16) (q : Bytes) : takeExact16 pat (be16 pat ++ q) = .ok q := takeExact16_eq_ok_iff.2 rfl
  cases i
  case relInfo ns q =>
    exact ⟨_, rfl, (takeClass_bind_eq_ok_iff info_class_iff Instr.relInfo _).2 ⟨ns, q, rfl, rfl⟩⟩
  case relSupRr res q =>
    exact ⟨_, rfl, (takeClass_bind_eq_ok_iff (sup_class_iff 0) Instr.relSupRr _).2 ⟨res, q, rfl, rfl⟩⟩
  case relSupRnr res q =>
    exact ⟨_, rfl, (takeClass_bind_eq_ok_iff (sup_class_iff 1) Instr.relSupRnr _).2 ⟨res, q, rfl, rfl⟩⟩
  case relSupRej res q =>
    exact ⟨_, rfl, (takeClass_bind_eq_ok_iff (sup_class_iff 2) Instr.relSupRej _).2 ⟨res, q, rfl, rfl⟩⟩
  case relSupKindUndefined res q =>
    exact ⟨_, rfl, (takeClass_bind_eq_ok_iff (sup_class_iff 3) Instr.relSupKindUndefined _).2 ⟨res, q, rfl, rfl⟩⟩
  case relUndefined high q =>
    exact ⟨_, rfl, (takeClass_bind_eq_ok_iff undef_class_iff Instr.relUndefined _).2 ⟨high, q, rfl, rfl⟩⟩
  -- The other rows: each reader takes what the encoder wrote for its operand.
  all_goals
    refine ⟨_, rfl, ?_⟩
    simp only [Laws.EncodeHead.row, decodeRow, takeNat_encNat_append, byte8, byte16, last16, last, seq7, bit1, bool,
      space, portSpace, kind, exact8, exact16, ok_bind, finish_nil]

/-! ### The record format -/

theorem toNat_ofNat_row (i : Instr) :
    (BitVec.ofNat 8 (Laws.EncodeHead.row i)).toNat = Laws.EncodeHead.row i := by
  cases i <;> rfl

theorem decode_encode_of_wf {i : Instr} (h : i.wf = true) : decode (encode i) = .ok i := by
  obtain ⟨r, henc, hdec⟩ := decodeRow_of_encode i
  rw [henc, decode, toNat_ofNat_row, hdec]
  exact if_pos h

/-- Settles O1 (R75): each operand reader takes back what the encoder wrote for its operand. -/
theorem decodeReadsBackEveryEncoding : Obligations.DecodeReadsBackEveryEncoding :=
  fun _ hwf => decode_encode_of_wf hwf

theorem encode_of_decode {r : Bytes} {i : Instr} (h : decode r = .ok i) : encode i = r := by
  cases r with
  | nil => cases h
  | cons row q =>
    rw [decode] at h
    split at h
    · cases h
    · next j hrow =>
      split at h
      · cases h
        rw [encode_of_decodeRow hrow, BitVec.ofNat_toNat, BitVec.setWidth_eq]
      · cases h

/-- Settles O2 (R75): each operand reader takes only what the encoder writes for its operand. -/
theorem acceptedRecordsAreCanonical : Obligations.AcceptedRecordsAreCanonical :=
  fun _ _ h => ⟨decode_wf h, encode_of_decode h⟩

/-- Settles O3 (R74, R75): the words and records are read. -/
theorem sampleWordsDecode : Obligations.SampleWordsDecode :=
  ⟨rfl, rfl, rfl, rfl, rfl, rfl, rfl, rfl, rfl⟩

end Sys2Proof.Machine
end

section
/-! The switch and the sockets: one equation of `SEND` for each way it can go (R125, R141, R147, R148), what a
received payload does to the socket store (R123, R149), and the closed interface (R184). -/

namespace Sys2Proof.Machine

/-! ### The rows of the assigned numbers (R46, R47) -/

theorem exec_pcmpPort (sp : PortSpace) (payload : Bytes) (s : State) :
    exec (.pcmpPort sp payload) s = exec (.portDeliver sp 1 payload) s := rfl

/-- Settles O44 (R122, R140): a row is `DISPATCH` of its number, or `PORT_DELIVER` of port 1. -/
theorem assignedNumbersAreRoutedLikeAnyOther : Obligations.AssignedNumbersAreRoutedLikeAnyOther := by
  refine ⟨fun payload s row hmem => ?rows, fun payload s =>
    ⟨fun h => (exec_pcmpPort .beport payload s).trans (exec_portDeliver_of_unbound payload h),
      fun sid h => (exec_pcmpPort .beport payload s).trans (exec_portDeliver_of_bound payload h),
      fun h => (exec_pcmpPort .relport payload s).trans (exec_portDeliver_of_unbound payload h),
      fun sid h => (exec_pcmpPort .relport payload s).trans (exec_portDeliver_of_bound payload h)⟩⟩
  case rows =>
    have hrow : exec row.2 s = .next (dispatchOp params row.1 payload s) := by
      simp only [List.mem_cons, List.not_mem_nil, or_false] at hmem
      rcases hmem with rfl | rfl | rfl | rfl | rfl | rfl <;> rfl
    refine ⟨fun h => ?unbound, fun sid h => ?raw, fun h => ⟨_, ?switch, exec_beDemux payload s⟩⟩
    case unbound => rw [hrow, dispatchOp_of_unbound params payload h]
    case raw => rw [hrow, dispatchOp_of_raw params payload h, enqueueOp_params_eq_delivered]
    case switch => rw [hrow, dispatchOp_of_switch params payload h]

/-! ### `ENQUEUE` (R123) -/

theorem queueIsFull_iff (P : Params) (n : Nat) : queueIsFull P n = true ↔ P.queueDepth = some n := by
  unfold queueIsFull
  cases P.queueDepth with
  | none => simp
  | some depth => rw [beq_iff_eq, Option.some.injEq, eq_comm]

theorem queueLen_of_find {sid : SockId} {k : Socket} {s : State} (h : Store.find sid s.sock = some k) :
    queueLen sid s = k.queue.length := by
  rw [queueLen, h]

theorem enqueueOp_of_find (P : Params) {sid : SockId} (payload : Bytes) {k : Socket} {s : State}
    (h : Store.find sid s.sock = some k) : enqueueOp P sid payload s =
      if P.queueDepth = some k.queue.length then reported 0x0B (some sid) s else delivered sid payload s := by
  simp only [enqueueOp, queueLen_of_find h, queueIsFull_iff]
  rfl

theorem openSocket_of_open {sid : SockId} {k : Socket} {s : State} (h : Store.find sid s.sock = some k)
    (hc : k.closed = false) : openSocket sid s = some k := by
  simp [openSocket, h, hc]

theorem openSocket_of_closed {sid : SockId} {s : State}
    (h : ∀ k, Store.find sid s.sock = some k → k.closed = true) : openSocket sid s = none :=
  Option.eq_none_iff_forall_not_mem.2 fun k hk => by
    obtain ⟨hfind, hopen⟩ := openSocket_eq_some hk
    rw [h k hfind] at hopen
    cases hopen

theorem exec_enqueue_of_open {sid : SockId} (payload : Bytes) {k : Socket} {s : State}
    (h : openSocket sid s = some k) : exec (.enqueue sid payload) s = .next (delivered sid payload s) := by
  change execEnqueue sid payload s = _
  rw [execEnqueue, h, ← enqueueOp_params_eq_delivered]

theorem exec_enqueue_of_none {sid : SockId} (payload : Bytes) {s : State} (h : openSocket sid s = none) :
    exec (.enqueue sid payload) s = .fault (.socketNotOpen sid) := by
  change execEnqueue sid payload s = _
  rw [execEnqueue, h]

/-- Settles O45 (R123; log entry 10): the open socket, the depth of its queue, and any other id. -/
theorem enqueuePushesOnOpenSockets : Obligations.EnqueuePushesOnOpenSockets :=
  ⟨fun _ payload _ _ h hc => exec_enqueue_of_open payload (openSocket_of_open h hc),
    fun P _ payload _ _ h => enqueueOp_of_find P payload h,
    fun _ payload _ h => exec_enqueue_of_none payload (openSocket_of_closed h)⟩

/-! ### `SEND` (R125, R147) -/

section Send

variable {sid : SockId} {k : Socket} {s : State} (payload : Bytes)

/-- The three rows are one command (log entry 9). -/
theorem exec_of_mem_sendRows {i : Instr}
    (hmem : i ∈ [Instr.send sid payload, .beSend sid payload, .relSend sid payload]) (s : State) :
    exec i s = .next (replied (sendOp sid payload s).2 (sendOp sid payload s).1) := by
  simp only [List.mem_cons, List.not_mem_nil, or_false] at hmem
  rcases hmem with rfl | rfl | rfl <;> rfl

theorem sendOp_of_unknown (h : Store.find sid s.sock = none) :
    sendOp sid payload s = (s, .err .noSuchSocket) := by
  rw [sendOp, h]

theorem sendOp_of_closed (h : Store.find sid s.sock = some k) (hc : k.closed = true) :
    sendOp sid payload s = (s, .err .socketClosed) := by
  simp [sendOp, h, hc]

theorem sendOp_of_ifClosed (h : Store.find sid s.sock = some k) (hc : k.closed = false)
    (ho : s.ifOpen = false) : sendOp sid payload s = (s, .err .interfaceClosed) := by
  simp [sendOp, h, hc, ho]

theorem sendOp_of_proto (h : Store.find sid s.sock = some k) (hc : k.closed = false) (ho : s.ifOpen = true)
    (hspace : k.space = .proto) : sendOp sid payload s = (txDatagramOp k.key payload s, .ok) := by
  simp [sendOp, h, hc, ho, hspace, sendProto]

theorem sendOp_of_relport (h : Store.find sid s.sock = some k) (hc : k.closed = false)
    (ho : s.ifOpen = true) (hspace : k.space = .relport) :
    sendOp sid payload s = (s, .err .notSupported) := by
  simp [sendOp, h, hc, ho, hspace, sendRel]

theorem sendOp_of_beport (h : Store.find sid s.sock = some k) (hc : k.closed = false) (ho : s.ifOpen = true)
    (hspace : k.space = .beport) : sendOp sid payload s = sendBe k.key payload s := by
  simp [sendOp, h, hc, ho, hspace]

end Send

theorem replied_txDatagramOp (n : U16) (payload : Bytes) (s : State) :
    replied .ok (txDatagramOp n payload s) =
      { s with
        cap := if s.capEn then s.cap ++ [0x01 :: (bytes16 n.toNat ++ payload)] else s.cap
        txb := s.txb ++ encodeFrame (bytes16 n.toNat ++ payload)
        cmdOut := s.cmdOut ++ [.ok] } := by
  rw [txDatagramOp_eq, encap_eq_bytes16_append]
  rfl

/-- Settles O47 (R125, R147; log entry 9): the socket's record and the interface select one equation of
`SEND`. -/
theorem sendIsRefusedOrSendsByTheSocketsSpace : Obligations.SendIsRefusedOrSendsByTheSocketsSpace := by
  intro sid payload s i hmem
  rw [exec_of_mem_sendRows payload hmem]
  refine ⟨fun h => ?unknown, fun k h => ⟨fun hc => ?closed, fun hc ho => ?ifClosed,
    fun hc ho hspace => ?proto, fun hc ho hspace => ?relport⟩⟩
  case unknown => rw [sendOp_of_unknown payload h]
  case closed => rw [sendOp_of_closed payload h hc]
  case ifClosed => rw [sendOp_of_ifClosed payload h hc ho]
  case proto => rw [sendOp_of_proto payload h hc ho hspace, replied_txDatagramOp]
  case relport => rw [sendOp_of_relport payload h hc ho hspace]

/-! ### `SEND` on a best-effort port (R141, R148) -/

theorem beMtu_of_duplex {s : State} (h : s.beSimplex = false) : beMtu s = s.linkMtu.toNat - 4 := by
  rw [beMtu, if_neg (by simp [h])]
  split <;> omega

section SendBe

variable {s : State} (key : U16) (payload : Bytes)

theorem sendBe_of_detached (h : Store.find 0x3A29 s.proto ≠ some .beSwitch) :
    sendBe key payload s = (s, .err .notAttached) := by
  simp [sendBe, (attached_eq_false_iff s).2 h]

theorem sendBe_of_simplex (h : Store.find 0x3A29 s.proto = some .beSwitch) (hs : s.beSimplex = true) :
    sendBe key payload s = (s, .err .sendDisabled) := by
  simp [sendBe, (attached_iff s).2 h, hs]

theorem sendBe_of_long (h : Store.find 0x3A29 s.proto = some .beSwitch) (hs : s.beSimplex = false)
    (hlen : s.linkMtu.toNat - 4 < payload.length) :
    sendBe key payload s = (s, .err .payloadTooLong) := by
  simp [sendBe, (attached_iff s).2 h, hs, beMtu_of_duplex hs, hlen]

/-- A payload that fits the link fits the packet's length field, because the link's unit is a 16-bit word. -/
theorem sendBe_of_fits (h : Store.find 0x3A29 s.proto = some .beSwitch) (hs : s.beSimplex = false)
    (hlen : payload.length ≤ s.linkMtu.toNat - 4) :
    sendBe key payload s =
      (txDatagramOp 0x3A29 (bytes16 key.toNat ++ bytes16 (payload.length + 4) ++ payload) s, .ok) := by
  have hmtu : s.linkMtu.toNat < 65536 := s.linkMtu.isLt
  have hpkt := (beBuild_eq key payload).trans (if_neg (by omega))
  simp [sendBe, (attached_iff s).2 h, hs, beMtu_of_duplex hs, Nat.not_lt.2 hlen, hpkt, protoBeDataNum]

end SendBe

/-- Settles O48 (R141, R148; log entry 9): the switch, the simplex flag and the length select one equation of
`SEND`. -/
theorem sendOnABestEffortPort : Obligations.SendOnABestEffortPort := by
  intro sid payload k s i hmem h hc ho hspace
  rw [exec_of_mem_sendRows payload hmem, sendOp_of_beport payload h hc ho hspace]
  refine ⟨fun hdet => ?detached, fun hatt => ⟨fun hs => ?simplex, fun hs hlen => ?long, fun hs hlen => ?fits⟩⟩
  case detached => rw [sendBe_of_detached k.key payload hdet]
  case simplex => rw [sendBe_of_simplex k.key payload hatt hs]
  case long => rw [sendBe_of_long k.key payload hatt hs hlen]
  case fits =>
    rw [sendBe_of_fits k.key payload hatt hs hlen, replied_txDatagramOp]
    rfl

/-! ### The queue (R44, R54) -/

theorem find_delivered {sid : SockId} {k : Socket} {s : State} (h : Store.find sid s.sock = some k)
    (payload : Bytes) : Store.find sid (delivered sid payload s).sock =
      some { k with queue := k.queue ++ [payload] } :=
  (Store.find_upd_of_find h _ sid).trans (if_pos rfl)

theorem find_popQueue {sid : SockId} {k : Socket} {s : State} (h : Store.find sid s.sock = some k)
    (rest : List Bytes) : Store.find sid (popQueue sid rest s).sock = some { k with queue := rest } :=
  (Store.find_upd_of_find h _ sid).trans (if_pos rfl)

theorem exec_dispatch_of_raw {n : U16} (payload : Bytes) {sid : SockId} {s : State}
    (h : Store.find n.toNat s.proto = some (.raw sid)) :
    exec (.dispatch n payload) s = .next (delivered sid payload s) := by
  rw [exec_dispatch, dispatchOp_of_raw params payload h, enqueueOp_params_eq_delivered]

theorem exec_recv_takes_head {sid : SockId} {k : Socket} {p : Bytes} {rest : List Bytes} {s : State}
    (h : Store.find sid s.sock = some k) (hc : k.closed = false) (hq : k.queue = p :: rest) :
    ∃ t, exec (.recv sid) s = .next t ∧ Store.find sid t.sock = some { k with queue := rest } ∧
      t.rcvOut = s.rcvOut ++ [.okBytes p] := by
  rw [exec_recv, recvOp_of_waiting h hc hq]
  exact ⟨_, rfl, find_popQueue h rest, rfl⟩

theorem exec_recv_of_empty {sid : SockId} {k : Socket} {s : State} (h : Store.find sid s.sock = some k)
    (hc : k.closed = false) (hq : k.queue = []) :
    exec (.recv sid) s = .next { s with rcvOut := s.rcvOut ++ [.err .receiveQueueEmpty] } := by
  rw [exec_recv, recvOp_of_empty h hc hq]
  rfl

/-- Settles O50 (R44, R54): the socket's record is followed through the two pushes and the two pops. -/
theorem queueIsFirstInFirstOut : Obligations.QueueIsFirstInFirstOut := by
  intro n p q sid k s hentry hfind hopen hqueue
  have hpushed := find_delivered (find_delivered hfind p) q
  rw [hqueue] at hpushed
  obtain ⟨s3, hfirst, hpopped, hout⟩ := exec_recv_takes_head hpushed hopen rfl
  obtain ⟨s4, hsecond, hdrained, hout'⟩ := exec_recv_takes_head hpopped hopen rfl
  refine ⟨_, _, s3, s4, _, exec_dispatch_of_raw p hentry, exec_dispatch_of_raw q hentry, hfirst, hsecond,
    exec_recv_of_empty hdrained hopen rfl, ?_⟩
  simp only [hout', hout, List.append_assoc, List.cons_append, List.nil_append]
  rfl

/-! ### The closed interface (R184) -/

/-- Settles O52 (R184): item 7 of R32 closes every socket of the store. -/
theorem closedInterfaceIsDeaf : Obligations.ClosedInterfaceIsDeaf := by
  intro s hinv ho
  obtain ⟨-, -, -, -, -, hclosed⟩ := hinv.closedQuiet ho
  refine ⟨fun b => ?byte, fun sp key => ?bind, fun x => ?attach, fun sid payload hsid => ?socket⟩
  case byte =>
    rw [exec_rxByte, rxByteOp_of_case (rxCase_eq_ignored params b ho)]
    rfl
  case bind => rw [exec_bind, bindOp_of_closed sp key ho]
  case attach => rw [exec_tpAttach, tpAttachOp_of_closed x ho]
  case socket =>
    obtain ⟨k, hk⟩ := Option.ne_none_iff_exists'.1 hsid
    have hc := hclosed sid k hk
    refine ⟨?_, ?_⟩
    · rw [exec_of_mem_sendRows payload List.mem_cons_self, sendOp_of_closed payload hk hc]
    · rw [exec_recv, recvOp_of_closed hk hc]
      rfl

/-! ### `PORT_FORCE_CLOSE` (R142) -/

theorem exec_portForceClose (sp : PortSpace) (port : U16) (s : State) :
    exec (.portForceClose sp port) s = .next (replied .ok (portForceCloseOp sp port s)) := rfl

theorem portForceCloseOp_of_unbound {sp : PortSpace} {port : U16} {s : State}
    (h : portEntry sp port s = none) : portForceCloseOp sp port s = s := by
  rw [portForceCloseOp, h]

theorem portForceCloseOp_of_bound {sp : PortSpace} {port : U16} {sid : SockId} {s : State}
    (h : portEntry sp port s = some sid) : portForceCloseOp sp port s = closeSock sid s := by
  rw [portForceCloseOp, h]

theorem portForceCloseOp_cmdOut (sp : PortSpace) (port : U16) (s : State) :
    (portForceCloseOp sp port s).cmdOut = s.cmdOut := by
  rcases portForceCloseOp_cases s sp port with ⟨-, h⟩ | ⟨sid, -, h⟩
  · rw [h]
  · obtain ⟨_, _, _, _, hframe⟩ := closeSock_frame s sid
    rw [h, hframe]

/-- Settles O59 (R142; log entry 3): the entry of the port selects the clause. -/
theorem portForceCloseClosesTheBoundSocket : Obligations.PortForceCloseClosesTheBoundSocket := by
  refine ⟨fun sp port s h => ?unbound, fun sp port sid s h hsid => ⟨_, exec_portForceClose sp port s, ?bound⟩,
    fun sp port s => ⟨_, exec_portForceClose sp port s, ?ok⟩, fun rest => rfl⟩
  case unbound => rw [exec_portForceClose, portForceCloseOp_of_unbound h]
  case bound =>
    obtain ⟨k, hk⟩ := Option.ne_none_iff_exists'.1 hsid
    rw [exec_close, closeOp_of_known hk, portForceCloseOp_of_bound h]
  case ok => exact congrArg (· ++ [Result.ok]) (portForceCloseOp_cmdOut sp port s)

/-! ### Port isolation (R149) -/

/-- `DISPATCH` of `u` under the number `n` delivers `payload` to the socket `sid`: the one bound to the number,
or, behind the switch, the one bound to the port of the packet `u`. -/
def RoutesTo (n : U16) (u : Bytes) (s : State) (sid : SockId) (payload : Bytes) : Prop :=
  (Store.find n.toNat s.proto = some (.raw sid) ∧ payload = u) ∨
  (Store.find n.toNat s.proto = some .beSwitch ∧
    ∃ port, beParse u = .ok (port, payload) ∧ Store.find port.toNat s.beport = some sid)

theorem portDeliverOp_sock (sp : PortSpace) (port : U16) (payload : Bytes) (s : State) :
    (portDeliverOp params sp port payload s).sock = s.sock ∨
      ∃ sid, portEntry sp port s = some sid ∧
        (portDeliverOp params sp port payload s).sock = (delivered sid payload s).sock := by
  rcases portDeliverOp_cases s params sp port payload with ⟨-, h⟩ | ⟨sid, hentry, h⟩
  · exact Or.inl (by rw [h, raise_sock])
  · exact Or.inr ⟨sid, hentry, by rw [h, enqueueOp_params_eq_delivered]⟩

theorem dispatchOp_sock (n : U16) (u : Bytes) (s : State) :
    (dispatchOp params n u s).sock = s.sock ∨
      ∃ sid payload, RoutesTo n u s sid payload ∧
        (dispatchOp params n u s).sock = (delivered sid payload s).sock := by
  rcases dispatchOp_cases s params n u with ⟨-, h⟩ | ⟨sid, hraw, h⟩ | ⟨hswitch, h⟩
  · exact Or.inl (by rw [h, raise_sock])
  · exact Or.inr ⟨sid, u, Or.inl ⟨hraw, rfl⟩, by rw [h, enqueueOp_params_eq_delivered]⟩
  · rw [h]
    rcases beDemuxOp_cases s params u with ⟨-, h⟩ | ⟨port, payload, hparse, h⟩
    · exact Or.inl (by rw [h, raise_sock])
    · rw [h]
      refine (portDeliverOp_sock .beport port payload s).imp_right fun ⟨sid, hport, hsock⟩ => ?_
      exact ⟨sid, payload, Or.inr ⟨hswitch, port, hparse, hport⟩, hsock⟩

theorem rxFrameOp_sock (f : Bytes) (s : State) :
    (rxFrameOp params f s).sock = s.sock ∨
      ∃ n u, decodeFrame f = .ok (encap n u) ∧ ∃ sid payload, RoutesTo n u s sid payload ∧
        (rxFrameOp params f s).sock = (delivered sid payload s).sock := by
  rcases rxFrameOp_cases s params f with ⟨e, -, h⟩ | ⟨dg, e, -, -, h⟩ | ⟨dg, n, u, hdec, hunencap, h⟩
  · exact Or.inl (by rw [h, raise_sock])
  · exact Or.inl (by rw [h, raise_sock, capture_sock])
  · rw [h, capture_eq]
    refine (dispatchOp_sock n u _).imp_right fun ⟨sid, payload, hroute, hsock⟩ => ?_
    exact ⟨n, u, by rw [encap_of_unencap hunencap, hdec], sid, payload, hroute, hsock⟩

/-- Only the `FLAG` that ends a frame touches the socket store. -/
theorem rxByteOp_sock (b : Byte) (s : State) :
    (rxByteOp params b s).sock = s.sock ∨
      ∃ n u, decodeFrame s.buf = .ok (encap n u) ∧ ∃ sid payload, RoutesTo n u s sid payload ∧
        (rxByteOp params b s).sock = (delivered sid payload s).sock := by
  rw [rxByteOp_eq_caseEffect]
  cases rxCase params b s with
  | flagFrame => exact rxFrameOp_sock s.buf { s with buf := [] }
  | ignored => exact Or.inl rfl
  | syncSkip => exact Or.inl rfl
  | syncFlag => exact Or.inl rfl
  | collectData => exact Or.inl rfl
  | collectOverflow => exact Or.inl rfl
  | flagEmpty => exact Or.inl rfl

/-- Settles O60 (R149): the change a received byte makes to the store, with the switch at its one number (item 4
of R32), and the one `REL_DELIVER` makes. -/
theorem payloadsReachOnlyTheBoundSocket : Obligations.PayloadsReachOnlyTheBoundSocket := by
  refine ⟨fun b s hplace => ⟨_, exec_rxByte b s, ?_⟩, fun port payload s => ⟨_, exec_relDeliver port payload s,
    portDeliverOp_sock .relport port payload s⟩⟩
  refine (rxByteOp_sock b s).imp_right fun ⟨n, u, hdec, sid, payload, hroute, hsock⟩ => ⟨n, u, hdec, ?_⟩
  rcases hroute with ⟨hraw, rfl⟩ | ⟨hswitch, port, hparse, hport⟩
  · exact Or.inl ⟨sid, hraw, hsock⟩
  · have hn : n = 0x3A29 := BitVec.eq_of_toNat_eq (hplace n.toNat hswitch)
    exact Or.inr ⟨hn, hswitch, port, payload, sid, hparse, hport, hsock⟩

end Sys2Proof.Machine
end
